-- ==== Sys2Proof/Word.lean ====
section
/-! DEFINITION. The fixed widths of the block: command words, bytes, 2-byte data, colours, sets of sprite slots
(spec/00_scope.md rules R7 to R10, spec/30_encoding.md rules R102 and R105). Widths only: every computation on them
stands in Decode.lean or in a file of Machine/. -/

namespace Sys2Proof

/-- A command word, and the width of a transfer on the result read port (R102, R108). -/
abbrev Word := BitVec 32

/-- One byte of `VRAM` or `PAL` (R70, R71). -/
abbrev Byte := BitVec 8

/-- A 2-byte datum: tile-map entry, stored colour, raw register word, cell of `OUT` (R72, R79, R110). -/
abbrev Half := BitVec 16

/-- A 15-bit colour, three 5-bit channels (R10). -/
abbrev Colour := BitVec 15

/-- The number of a sprite slot, 0 to 127 (R37). -/
abbrev SlotNo := BitVec 7

/-- A set of sprite slots: bit `s` stands for slot `s` (R39, R146). -/
abbrev SlotSet := BitVec 128

/-- The dirty bits, and masks over them (R50). -/
abbrev DirtySet := BitVec 21

/-- The fault bits (R55). -/
abbrev FaultSet := BitVec 5

end Sys2Proof
end

