-- ==== Sys2Proof/Config.lean ====
section
/-! DEFINITION. The parameters of spec/00_scope.md rule R6 as one record, and the values this hardware takes. A
parameter that a decision D<n> of the spec introduces is a field, so that a claim can name it. The three that select a
behaviour (`windowStub`, `blendRound`, `mosaicMod`) are arguments of the functions that read them. The one launch-state
parameter, `RESET_MEM`, is an argument of `Machine.State.launch`. -/

namespace Sys2Proof

/-- `BLEND_ROUND` (R232): how colour arithmetic is requantised. -/
inductive BlendRound where
  /-- add one half, then floor: this hardware -/
  | halfUp
  /-- floor: the other value R232 names -/
  | truncate
deriving DecidableEq, Repr

/-- `MOSAIC_MOD` (R189, D21): the remainder mosaic snapping takes of a negative coordinate. -/
inductive MosaicMod where
  /-- floor remainder: this hardware -/
  | floor
  /-- truncated remainder, the alternative of D21 -/
  | trunc
deriving DecidableEq, Repr

/-- The parameter record of R6. -/
structure Config where
  screenW : Nat
  screenH : Nat
  nObj : Nat
  nBg : Nat
  nBgAff : Nat
  nObjAff : Nat
  frac : Nat
  chBits : Nat
  colorBits : Nat
  evMax : Nat
  prioMax : Nat
  objXBits : Nat
  objYBits : Nat
  /-- `ObjDim`: row `shape`, column `size` (R113, D13) -/
  objDim : Vector (Vector (Nat × Nat) 4) 4
  /-- `TileBgDim`, by `size` (R114, D14) -/
  tileBgDim : Vector (Nat × Nat) 4
  /-- `AffBgDim`, by `size` (R114) -/
  affBgDim : Vector Nat 4
  /-- the background of each affine group (D9) -/
  affBg : Vector (BitVec 2) 2
  mapBlockPx : Nat
  tilePx : Nat
  vramSize : Nat
  bgVramSize : Nat
  objTileBase : Nat
  objTileUnits : Nat
  /-- bytes of a tile unit (D16) -/
  objTileUnitBytes : Nat
  objBitmapMinTile : Nat
  bmp3W : Nat
  bmp3H : Nat
  bmp4W : Nat
  bmp4H : Nat
  bmp5W : Nat
  bmp5H : Nat
  bmpPage1 : Nat
  windowStub : Bool
  blendRound : BlendRound
  mosaicMod : MosaicMod
deriving DecidableEq, Repr

/-- The values of R6: this hardware. -/
@[reducible] def cfg : Config where
  screenW := 240
  screenH := 160
  nObj := 128
  nBg := 4
  nBgAff := 2
  nObjAff := 32
  frac := 8
  chBits := 5
  colorBits := 15
  evMax := 16
  prioMax := 3
  objXBits := 9
  objYBits := 8
  objDim :=
    #v[#v[(8, 8), (16, 16), (32, 32), (64, 64)],
       #v[(16, 8), (32, 8), (32, 16), (64, 32)],
       #v[(8, 16), (8, 32), (16, 32), (32, 64)],
       #v[(0, 0), (0, 0), (0, 0), (0, 0)]]
  tileBgDim := #v[(256, 256), (512, 256), (256, 512), (512, 512)]
  affBgDim := #v[128, 256, 512, 1024]
  affBg := #v[2, 3]
  mapBlockPx := 256
  tilePx := 8
  vramSize := 0x18000
  bgVramSize := 0x10000
  objTileBase := 0x10000
  objTileUnits := 1024
  objTileUnitBytes := 32
  objBitmapMinTile := 512
  bmp3W := 240
  bmp3H := 160
  bmp4W := 240
  bmp4H := 160
  bmp5W := 160
  bmp5H := 128
  bmpPage1 := 0xA000
  windowStub := false
  blendRound := .halfUp
  mosaicMod := .floor

end Sys2Proof
end

