-- ==== Sys2Proof/Machine/Records.lean ====
section
/-! DEFINITION. The records of named fields that the state is made of: the host-owned video-control record `REG`, sprite
descriptors and affine groups (spec/10_state.md rules R27 to R38), and the block-owned result registers, geometry cache,
blend unit and snapshot (rules R22, R24, R40, R44 to R46). A field has the width its rule gives; a group of one-bit
fields that a rule indexes (`bg_enable[n]`, `target_a[l]`, `bg[n]`, `en[n]`) is one bit vector, bit `n` for index `n`.
Quantities the rules treat as integers (the cached geometry) are `Nat` or `Int`. -/

namespace Sys2Proof

/-! ### `REG`, host-owned -/

/-- `REG.dispcnt`, the display control group (R28). -/
structure Dispcnt where
  mode : BitVec 3
  page : Bool
  obj1d : Bool
  forcedBlank : Bool
  bgEnable : BitVec 4
  winEnable : BitVec 2
  objwinEnable : Bool
deriving DecidableEq, Repr

/-- `REG.bgcnt[n]`, the control group of one background (R29). -/
structure BgCnt where
  priority : BitVec 2
  charBase : BitVec 2
  mosaic : Bool
  color8 : Bool
  screenBase : BitVec 5
  wrap : Bool
  size : BitVec 2
deriving DecidableEq, Repr

/-- `REG.aff[k]`, the affine transform group of background `2 + k` (R31). -/
structure BgAffine where
  pa : BitVec 16
  pb : BitVec 16
  pc : BitVec 16
  pd : BitVec 16
  x : BitVec 28
  y : BitVec 28
deriving DecidableEq, Repr

/-- `REG.win[w]`, a window rectangle (R32). -/
structure WindowRect where
  left : BitVec 8
  right : BitVec 8
  top : BitVec 8
  bottom : BitVec 8
deriving DecidableEq, Repr

/-- A layer-enable mask: `REG.winin[w]`, `REG.winobj`, `REG.winout` (R33), and the result register `WRES` (R22). -/
structure LayerMask where
  bg : BitVec 4
  obj : Bool
  blend : Bool
deriving DecidableEq, Repr

/-- `REG.mosaic`, the four granularities (R34). -/
structure Mosaic where
  bgH : BitVec 4
  bgV : BitVec 4
  objH : BitVec 4
  objV : BitVec 4
deriving DecidableEq, Repr

/-- `REG.bldcnt`: blend mode and target membership, bit `l` for layer `l` (0 to 3 backgrounds, 4 object, 5 backdrop;
R35). -/
structure BldCnt where
  mode : BitVec 2
  targetA : BitVec 6
  targetB : BitVec 6
deriving DecidableEq, Repr

/-- `REG`, the video-control record (R27): the fields of rules R28 to R36. -/
structure Reg where
  dispcnt : Dispcnt
  bgcnt : Vector BgCnt 4
  bgHofs : Vector (BitVec 9) 4
  bgVofs : Vector (BitVec 9) 4
  aff : Vector BgAffine 2
  win : Vector WindowRect 2
  winin : Vector LayerMask 2
  winobj : LayerMask
  winout : LayerMask
  mosaic : Mosaic
  bldcnt : BldCnt
  eva : BitVec 5
  evb : BitVec 5
  evy : BitVec 5
deriving DecidableEq, Repr

/-! ### `OAM` and `OBJAFF`, host-owned -/

/-- `OAM[s]`, a sprite descriptor (R37). -/
structure ObjAttr where
  y : BitVec 8
  x : BitVec 9
  affine : Bool
  doubleSize : Bool
  gfxMode : BitVec 2
  mosaic : Bool
  color8 : Bool
  shape : BitVec 2
  size : BitVec 2
  hflip : Bool
  vflip : Bool
  affGroup : BitVec 5
  tile : BitVec 10
  priority : BitVec 2
  palette : BitVec 4
deriving DecidableEq, Repr

/-- `OBJAFF[g]`, a sprite affine group (R38). -/
structure ObjAffine where
  pa : BitVec 16
  pb : BitVec 16
  pc : BitVec 16
  pd : BitVec 16
deriving DecidableEq, Repr

/-! ### All host-owned state -/

/-- Everything the host alone writes (R20, R21, R300): `REG`, `OAM`, `OBJAFF`, and the byte-addressed spaces `VRAM` and
`PAL` (R70, R71) as lists of address and byte in the canonical form of `Memory.wf`. -/
structure HostMem where
  reg : Reg
  oam : Vector ObjAttr 128
  objAff : Vector ObjAffine 32
  vram : List Host.Cell
  pal : List Host.Cell
deriving DecidableEq, Repr

/-- The launch-state parameter `RESET_MEM` (R60, R310): what the host-owned memories and the output buffer hold right
after reset. Any value. -/
structure LaunchMem where
  host : HostMem
  out : List (Nat × BitVec 16)
deriving DecidableEq, Repr

/-! ### Block-owned records -/

/-- `QRES` (R22, register 2). -/
structure QRes where
  valid : Bool
  slot : SlotNo
deriving DecidableEq, Repr

/-- `ORES` (R22, register 3). -/
structure ORes where
  color : Colour
  prio : BitVec 2
  semi : Bool
  objwin : Bool
  found : Bool
deriving DecidableEq, Repr

/-- `BRES` (R22, register 4). -/
structure BRes where
  color : Colour
  valid : Bool
deriving DecidableEq, Repr

/-- `ACC[k]`, an affine accumulator: two's complement, 8 fraction bits (R24, registers 12 to 15). -/
structure Acc where
  x : BitVec 32
  y : BitVec 32
deriving DecidableEq, Repr

/-- `OBJC[s]`, the cached geometry of a slot (R40). `texW = 0` is the hidden sentinel. -/
structure ObjCache where
  texW : Nat
  texH : Nat
  rectX : Int
  rectY : Int
  rectW : Nat
  rectH : Nat
  cx : Int
  cy : Int
  clipX0 : Nat
  clipX1 : Nat
  clipY0 : Nat
  clipY1 : Nat
deriving DecidableEq, Repr

/-- The states of the blend unit (R45, R220). -/
inductive BuState where
  | reset
  | objectAdded
  | bg0Added
  | bg1Added
  | bg2Added
  | bg3Added
  | backdropAdded
  | composited
deriving DecidableEq, Repr

/-- A priority slot of the blend unit (R46). -/
structure Layer where
  color : Colour
  prio : BitVec 3
  tgtA : Bool
  tgtB : Bool
  blendedObj : Bool
  layer : BitVec 3
deriving DecidableEq, Repr

/-- The blend unit: `BU.state`, `BU.slot[0]`, `BU.slot[1]` (R45, R46; registers 16 to 18). -/
structure BlendUnit where
  state : BuState
  slot0 : Layer
  slot1 : Layer
deriving DecidableEq, Repr

/-- `SNAP`, the dirty tracker's snapshot (R44, register 20). -/
structure Snap where
  tag : BitVec 3
  en : BitVec 4
  mos : BitVec 4
  granH : BitVec 4
  granV : BitVec 4
  page : Bool
deriving DecidableEq, Repr

end Sys2Proof
end

