-- ==== Sys2Proof/Syntax.lean ====
section
/-! DEFINITION. What the host can put on the block's ports: the 24 commands (`Instr`, one constructor per row of
spec/opcode_table.json; spec/30_encoding.md rules R101, R102) and the transactions of the ports (R100). An operand has
exactly the width of its field in the command word, so every value of `Instr` is a command of the table; what is left
to check, of a raw word and of a transaction, stands in WellFormed.lean. -/

namespace Sys2Proof

/-- The commands (R101), with the operand fields of their formats (R102). -/
inductive Instr where
  /-- format S -/
  | markDrawn (slot : SlotNo)
  /-- format S -/
  | markHidden (slot : SlotNo)
  /-- format P -/
  | query (x y : BitVec 8)
  /-- format Z -/
  | qpop
  /-- format P -/
  | smpObj (x y : BitVec 8)
  /-- format T -/
  | smpTile (bg : BitVec 2) (x y : BitVec 8)
  /-- format A; `k` is the affine group, background `2 + k` -/
  | smpAff (k : BitVec 1)
  /-- format P -/
  | smpBmp3 (x y : BitVec 8)
  /-- format P -/
  | smpBmp4 (x y : BitVec 8)
  /-- format P -/
  | smpBmp5 (x y : BitVec 8)
  /-- format W -/
  | winEval (x y : BitVec 8) (ow : Bool)
  /-- format Z -/
  | bldReset
  /-- format O -/
  | bldObj (color : Colour) (prio : BitVec 3) (semi : Bool)
  /-- format G -/
  | bldBg0 (color : Colour) (prio : BitVec 3)
  /-- format G -/
  | bldBg1 (color : Colour) (prio : BitVec 3)
  /-- format G -/
  | bldBg2 (color : Colour) (prio : BitVec 3)
  /-- format G -/
  | bldBg3 (color : Colour) (prio : BitVec 3)
  /-- format K -/
  | bldBackdrop (color : Colour)
  /-- format C -/
  | bldComposite (blendEn : Bool)
  /-- format Z -/
  | accSeed
  /-- format Z -/
  | accStep
  /-- format Y -/
  | renderRow (y : BitVec 8)
  /-- format Z -/
  | startFrame
  /-- format Z -/
  | shouldFlush
deriving DecidableEq, Repr

/-! ### The store port (R100): a field, or a raw word, of `REG`, `OAM`, `OBJAFF`, `VRAM`, `PAL` -/

/-- A field of `REG` with the value stored into it (rules R28 to R36). -/
inductive RegField where
  | mode (v : BitVec 3)
  | page (v : Bool)
  | obj1d (v : Bool)
  | forcedBlank (v : Bool)
  | bgEnable (n : BitVec 2) (v : Bool)
  | winEnable (w : BitVec 1) (v : Bool)
  | objwinEnable (v : Bool)
  | bgPriority (n : BitVec 2) (v : BitVec 2)
  | bgCharBase (n : BitVec 2) (v : BitVec 2)
  | bgMosaic (n : BitVec 2) (v : Bool)
  | bgColor8 (n : BitVec 2) (v : Bool)
  | bgScreenBase (n : BitVec 2) (v : BitVec 5)
  | bgWrap (n : BitVec 2) (v : Bool)
  | bgSize (n : BitVec 2) (v : BitVec 2)
  | bgHofs (n : BitVec 2) (v : BitVec 9)
  | bgVofs (n : BitVec 2) (v : BitVec 9)
  | affPa (k : BitVec 1) (v : BitVec 16)
  | affPb (k : BitVec 1) (v : BitVec 16)
  | affPc (k : BitVec 1) (v : BitVec 16)
  | affPd (k : BitVec 1) (v : BitVec 16)
  | affX (k : BitVec 1) (v : BitVec 28)
  | affY (k : BitVec 1) (v : BitVec 28)
  | winLeft (w : BitVec 1) (v : BitVec 8)
  | winRight (w : BitVec 1) (v : BitVec 8)
  | winTop (w : BitVec 1) (v : BitVec 8)
  | winBottom (w : BitVec 1) (v : BitVec 8)
  | wininBg (w : BitVec 1) (n : BitVec 2) (v : Bool)
  | wininObj (w : BitVec 1) (v : Bool)
  | wininBlend (w : BitVec 1) (v : Bool)
  | winobjBg (n : BitVec 2) (v : Bool)
  | winobjObj (v : Bool)
  | winobjBlend (v : Bool)
  | winoutBg (n : BitVec 2) (v : Bool)
  | winoutObj (v : Bool)
  | winoutBlend (v : Bool)
  | mosaicBgH (v : BitVec 4)
  | mosaicBgV (v : BitVec 4)
  | mosaicObjH (v : BitVec 4)
  | mosaicObjV (v : BitVec 4)
  | bldMode (v : BitVec 2)
  | targetA (l : Fin 6) (v : Bool)
  | targetB (l : Fin 6) (v : Bool)
  | eva (v : BitVec 5)
  | evb (v : BitVec 5)
  | evy (v : BitVec 5)
deriving DecidableEq, Repr

/-- A field of `OAM[s]` with the value stored into it (R37). -/
inductive OamField where
  | y (v : BitVec 8)
  | x (v : BitVec 9)
  | affine (v : Bool)
  | doubleSize (v : Bool)
  | gfxMode (v : BitVec 2)
  | mosaic (v : Bool)
  | color8 (v : Bool)
  | shape (v : BitVec 2)
  | size (v : BitVec 2)
  | hflip (v : Bool)
  | vflip (v : Bool)
  | affGroup (v : BitVec 5)
  | tile (v : BitVec 10)
  | priority (v : BitVec 2)
  | palette (v : BitVec 4)
deriving DecidableEq, Repr

/-- A field of `OBJAFF[g]` with the value stored into it (R38). -/
inductive ObjAffField where
  | pa (v : BitVec 16)
  | pb (v : BitVec 16)
  | pc (v : BitVec 16)
  | pd (v : BitVec 16)
deriving DecidableEq, Repr

/-- A store of the host (R100). Raw words are those of rules R110 and R111; `VRAM` and `PAL` are stored to by the byte
and by the 2-byte word (R72). -/
inductive HostStore where
  /-- a named field of `REG` -/
  | regField (f : RegField)
  /-- a raw 16-bit word of `REG` at a byte offset (R110) -/
  | regHalf (off : Nat) (v : Half)
  /-- a raw 32-bit word of `REG`: the rows `X` and `Y` of R110 are 32 bits wide -/
  | regWord (off : Nat) (v : Word)
  /-- a named field of `OAM[s]` -/
  | oamField (s : SlotNo) (f : OamField)
  /-- a raw 16-bit word of the space that holds `OAM` and `OBJAFF` (R78, R111) -/
  | oamHalf (addr : Nat) (v : Half)
  /-- a named field of `OBJAFF[g]` -/
  | objAffField (g : BitVec 5) (f : ObjAffField)
  | vramByte (addr : Nat) (v : Byte)
  | vramHalf (addr : Nat) (v : Half)
  | palByte (addr : Nat) (v : Byte)
  | palHalf (addr : Nat) (v : Half)
deriving DecidableEq, Repr

/-- A transaction on a port of the block (R100). Each is an atomic event; the host's come one after another and never
while a command executes (R20, R84). None reads back host-owned state: `REG` is "read-write to the host" (R27), but the
ports give it no read of `REG` (DESIGN CHOICE, notes/assumptions/17.md). -/
inductive HostTxn where
  /-- the command port: one 32-bit word -/
  | command (w : Word)
  /-- the store port -/
  | store (st : HostStore)
  /-- the dirty-set port: a 21-bit mask (R109) -/
  | dirtySet (m : DirtySet)
  /-- the result read port: result register number `r` (R108) -/
  | readResult (r : Nat)
  /-- the result read port: a cell of `OUT` (R79) -/
  | readOut (row col : Nat)
  /-- the reset input (R100, R310), with what the host-owned memories and `OUT` hold after it, which the spec leaves
  open (`RESET_MEM`) -/
  | reset (m : LaunchMem)
deriving DecidableEq, Repr

/-- The mnemonic of a command (R101). -/
def Instr.mnemonic : Instr → String
  | .markDrawn _ => "MARK_DRAWN"
  | .markHidden _ => "MARK_HIDDEN"
  | .query _ _ => "QUERY"
  | .qpop => "QPOP"
  | .smpObj _ _ => "SMP_OBJ"
  | .smpTile _ _ _ => "SMP_TILE"
  | .smpAff _ => "SMP_AFF"
  | .smpBmp3 _ _ => "SMP_BMP3"
  | .smpBmp4 _ _ => "SMP_BMP4"
  | .smpBmp5 _ _ => "SMP_BMP5"
  | .winEval _ _ _ => "WIN_EVAL"
  | .bldReset => "BLD_RESET"
  | .bldObj _ _ _ => "BLD_OBJ"
  | .bldBg0 _ _ => "BLD_BG0"
  | .bldBg1 _ _ => "BLD_BG1"
  | .bldBg2 _ _ => "BLD_BG2"
  | .bldBg3 _ _ => "BLD_BG3"
  | .bldBackdrop _ => "BLD_BACKDROP"
  | .bldComposite _ => "BLD_COMPOSITE"
  | .accSeed => "ACC_SEED"
  | .accStep => "ACC_STEP"
  | .renderRow _ => "RENDER_ROW"
  | .startFrame => "START_FRAME"
  | .shouldFlush => "SHOULD_FLUSH"

end Sys2Proof
end

