-- ==== Sys2Proof/WellFormed.lean ====
section
/-! DEFINITION. The checks a thing put on a port must pass. A command word must be of a row of the opcode table under
the masks of spec/30_encoding.md rule R102; this check is written from the table (R101) and the masks alone, apart from
the decoder, so that the two can be held against each other. A store must lie in its space and a 2-byte store on an even
address; a read of `OUT` must name a cell (R70, R71, R73, R78, R79). A value of `Instr` needs no check: its operands
have the widths of their fields. -/

namespace Sys2Proof

/-- The command formats of R102. -/
inductive Format where
  | Z | S | P | W | T | A | O | G | K | C | Y
deriving DecidableEq, Repr

/-- The mask column of R102: the bits of a word that are fixed in the format. -/
def Format.mask : Format → Word
  | .Z => 0xFFFFFFFF
  | .S => 0xFFFFFF80
  | .P => 0xFFFF0000
  | .W => 0xFFFE0000
  | .T => 0xFFFC0000
  | .A => 0xFFFEFFFF
  | .O => 0xFFF80000
  | .G => 0xFFFC0000
  | .K => 0xFFFF8000
  | .C => 0xFFFFFFFE
  | .Y => 0xFFFF00FF

/-- A row of the opcode table (R101). -/
structure OpcodeRow where
  opcode : BitVec 8
  mnemonic : String
  format : Format
deriving DecidableEq, Repr

/-- "`match` is the opcode in bits 31:24 and zero elsewhere" (R102). -/
def OpcodeRow.matchWord (r : OpcodeRow) : Word := r.opcode.setWidth 32 <<< 24

/-- The opcode map (R101). -/
def opcodeTable : List OpcodeRow :=
  [⟨0x01, "MARK_DRAWN", .S⟩, ⟨0x02, "MARK_HIDDEN", .S⟩, ⟨0x03, "QUERY", .P⟩, ⟨0x04, "QPOP", .Z⟩] ++
  [⟨0x08, "SMP_OBJ", .P⟩, ⟨0x09, "SMP_TILE", .T⟩, ⟨0x0A, "SMP_AFF", .A⟩, ⟨0x0B, "SMP_BMP3", .P⟩,
   ⟨0x0C, "SMP_BMP4", .P⟩, ⟨0x0D, "SMP_BMP5", .P⟩, ⟨0x0E, "WIN_EVAL", .W⟩] ++
  [⟨0x10, "BLD_RESET", .Z⟩, ⟨0x11, "BLD_OBJ", .O⟩, ⟨0x12, "BLD_BG0", .G⟩, ⟨0x13, "BLD_BG1", .G⟩,
   ⟨0x14, "BLD_BG2", .G⟩, ⟨0x15, "BLD_BG3", .G⟩, ⟨0x16, "BLD_BACKDROP", .K⟩, ⟨0x17, "BLD_COMPOSITE", .C⟩] ++
  [⟨0x18, "ACC_SEED", .Z⟩, ⟨0x19, "ACC_STEP", .Z⟩, ⟨0x1A, "RENDER_ROW", .Y⟩] ++
  [⟨0x20, "START_FRAME", .Z⟩, ⟨0x21, "SHOULD_FLUSH", .Z⟩]

/-- "A word `w` is the command of a row iff `(w & mask) = match`" (R102). -/
def OpcodeRow.accepts (r : OpcodeRow) (w : Word) : Bool := w &&& r.format.mask == r.matchWord

/-- Whether a word is of some row of the table; every other word is illegal (R104). -/
def wellFormedWord (w : Word) : Bool := opcodeTable.any (·.accepts w)

/-- The size of `PAL`, and of the space that holds `OAM` and `OBJAFF`: 0x400 bytes (R71, R78, R111). -/
def palSize : Nat := 0x400

/-- See `palSize`. -/
def oamSize : Nat := 0x400

/-- Why a transaction is not well formed. -/
inductive Malformed where
  /-- a store at an address outside its space -/
  | outsideSpace
  /-- a 2-byte store at an odd address -/
  | misaligned
  /-- a read of `OUT` at a row or column it does not have -/
  | outsideOut
deriving DecidableEq, Repr

/-- A 2-byte store at `addr` into a space of `size` bytes. -/
def checkHalf (size addr : Nat) : Option Malformed :=
  if size ≤ addr then some .outsideSpace else if addr % 2 = 1 then some .misaligned else none

/-- What is wrong with a store, if anything. A raw store to `REG` is never wrong: "a bit not listed is reserved, ignored
by the block and of no effect" (R110). -/
def HostStore.malformed : HostStore → Option Malformed
  | .regField _ => none
  | .regHalf _ _ => none
  | .regWord _ _ => none
  | .oamField _ _ => none
  | .oamHalf a _ => checkHalf oamSize a
  | .objAffField _ _ => none
  | .vramByte a _ => if cfg.vramSize ≤ a then some .outsideSpace else none
  | .vramHalf a _ => checkHalf cfg.vramSize a
  | .palByte a _ => if palSize ≤ a then some .outsideSpace else none
  | .palHalf a _ => checkHalf palSize a

/-- What is wrong with a transaction, if anything. A command word that is not of the table is no malformed transaction:
the block takes it and raises `BAD_COMMAND` (R290). -/
def HostTxn.malformed : HostTxn → Option Malformed
  | .command _ => none
  | .store st => st.malformed
  | .dirtySet _ => none
  | .readResult _ => none
  | .readOut row col => if row < cfg.screenH ∧ col < cfg.screenW then none else some .outsideOut
  | .reset _ => none

/-- Whether a transaction is well formed. -/
def HostTxn.wellFormed (t : HostTxn) : Bool := t.malformed.isNone

end Sys2Proof
end

