-- ==== Sys2Proof/Decode.lean ====
section
/-! DEFINITION. The decoder of command words, total on every word, and after it the encoder, both written from
spec/30_encoding.md rules R101, R102, R104 and R106. -/

namespace Sys2Proof

/-- Why a command word is illegal (R104). -/
inductive Illegal where
  /-- "an opcode not in the table" -/
  | unknownOpcode
  /-- "a listed opcode with a must-be-zero bit set" -/
  | reservedBitSet
deriving DecidableEq, Repr

/-- `w[lo+len-1 : lo]` (R7). -/
def field (w : Word) (lo len : Nat) : BitVec len := w.extractLsb' lo len

/-- A one-bit field as a Boolean (R7). -/
def flagField (w : Word) (i : Nat) : Bool := w.getLsbD i

/-- The command `i`, unless a bit of `w[lo+len-1 : lo]` is set (R102: "a bit that the format does not name must be 0").
-/
def mustBeZero (w : Word) (lo len : Nat) (i : Instr) : Except Illegal Instr :=
  if field w lo len = 0#len then .ok i else .error .reservedBitSet

/-- The decoder (R101, R102, R104). "the decoder needs only `w[31:24]` to choose the format" (R105). -/
def decode (w : Word) : Except Illegal Instr :=
  match (field w 24 8).toNat with
  | 0x01 => mustBeZero w 7 17 (.markDrawn (field w 0 7))
  | 0x02 => mustBeZero w 7 17 (.markHidden (field w 0 7))
  | 0x03 => mustBeZero w 16 8 (.query (field w 0 8) (field w 8 8))
  | 0x04 => mustBeZero w 0 24 .qpop
  | 0x08 => mustBeZero w 16 8 (.smpObj (field w 0 8) (field w 8 8))
  | 0x09 => mustBeZero w 18 6 (.smpTile (field w 16 2) (field w 0 8) (field w 8 8))
  | 0x0A => if field w 0 16 = 0#16 then mustBeZero w 17 7 (.smpAff (field w 16 1)) else .error .reservedBitSet
  | 0x0B => mustBeZero w 16 8 (.smpBmp3 (field w 0 8) (field w 8 8))
  | 0x0C => mustBeZero w 16 8 (.smpBmp4 (field w 0 8) (field w 8 8))
  | 0x0D => mustBeZero w 16 8 (.smpBmp5 (field w 0 8) (field w 8 8))
  | 0x0E => mustBeZero w 17 7 (.winEval (field w 0 8) (field w 8 8) (flagField w 16))
  | 0x10 => mustBeZero w 0 24 .bldReset
  | 0x11 => mustBeZero w 19 5 (.bldObj (field w 0 15) (field w 15 3) (flagField w 18))
  | 0x12 => mustBeZero w 18 6 (.bldBg0 (field w 0 15) (field w 15 3))
  | 0x13 => mustBeZero w 18 6 (.bldBg1 (field w 0 15) (field w 15 3))
  | 0x14 => mustBeZero w 18 6 (.bldBg2 (field w 0 15) (field w 15 3))
  | 0x15 => mustBeZero w 18 6 (.bldBg3 (field w 0 15) (field w 15 3))
  | 0x16 => mustBeZero w 15 9 (.bldBackdrop (field w 0 15))
  | 0x17 => mustBeZero w 1 23 (.bldComposite (flagField w 0))
  | 0x18 => mustBeZero w 0 24 .accSeed
  | 0x19 => mustBeZero w 0 24 .accStep
  | 0x1A => if field w 0 8 = 0#8 then mustBeZero w 16 8 (.renderRow (field w 8 8)) else .error .reservedBitSet
  | 0x20 => mustBeZero w 0 24 .startFrame
  | 0x21 => mustBeZero w 0 24 .shouldFlush
  | _ => .error .unknownOpcode

/-- The sums of R106 for the formats with `x` and `y`. -/
def xyWord (base : Nat) (x y : BitVec 8) : Nat := base + (y.toNat <<< 8) + x.toNat

/-- The sums of R106 for the formats with a colour and a priority. -/
def layerWord (base : Nat) (color : Colour) (prio : BitVec 3) : Nat := base + (prio.toNat <<< 15) + color.toNat

/-- The word of a command, as a number: the table of R106, and for `SMP_AFF` the field `k` of R102. -/
def encodeNat : Instr → Nat
  | .markDrawn slot => 0x01000000 + slot.toNat
  | .markHidden slot => 0x02000000 + slot.toNat
  | .query x y => xyWord 0x03000000 x y
  | .qpop => 0x04000000
  | .smpObj x y => xyWord 0x08000000 x y
  | .smpTile bg x y => xyWord (0x09000000 + (bg.toNat <<< 16)) x y
  | .smpAff k => 0x0A000000 + (k.toNat <<< 16)
  | .smpBmp3 x y => xyWord 0x0B000000 x y
  | .smpBmp4 x y => xyWord 0x0C000000 x y
  | .smpBmp5 x y => xyWord 0x0D000000 x y
  | .winEval x y ow => xyWord (0x0E000000 + (ow.toNat <<< 16)) x y
  | .bldReset => 0x10000000
  | .bldObj color prio semi => layerWord (0x11000000 + (semi.toNat <<< 18)) color prio
  | .bldBg0 color prio => layerWord 0x12000000 color prio
  | .bldBg1 color prio => layerWord 0x13000000 color prio
  | .bldBg2 color prio => layerWord 0x14000000 color prio
  | .bldBg3 color prio => layerWord 0x15000000 color prio
  | .bldBackdrop color => 0x16000000 + color.toNat
  | .bldComposite blendEn => 0x17000000 + blendEn.toNat
  | .accSeed => 0x18000000
  | .accStep => 0x19000000
  | .renderRow y => 0x1A000000 + (y.toNat <<< 8)
  | .startFrame => 0x20000000
  | .shouldFlush => 0x21000000

/-- The word of a command (R106). -/
def encode (i : Instr) : Word := BitVec.ofNat 32 (encodeNat i)

/-- The word that `w` lays out when it gives `nbits` bits and every further bit of the word is 0. -/
def tableWord (nbits w : Nat) : Word := BitVec.ofNat 32 (w % 2 ^ nbits)

/-- The instruction the decoder reads from a word numbered as spec/opcode_table.json numbers it. Every command is one
32-bit word (R105), so there is no order of words or bytes to undo. -/
def decodeTableWord (nbits w : Nat) : Option Instr := (decode (tableWord nbits w)).toOption

end Sys2Proof
end

