-- ==== Sys2Proof/Machine/Memory.lean ====
section
/-! DEFINITION. Memories as lists of address and value in one canonical form, and fixed-size tables. The same memory
serves the byte-addressed spaces `VRAM` and `PAL` (`w = 8`, spec/20_memory.md rules R70, R71) and the output buffer
`OUT`, whose unit is the 16-bit cell (`w = 16`, rule R79). An address that the list does not hold reads as 0
(DESIGN CHOICE, notes/assumptions/4.md); the launch state may list any contents (R60). -/

namespace Sys2Proof.Machine

/-- A memory of `w`-bit units. `Memory 8` is `List Host.Cell`. -/
abbrev Memory (w : Nat) := List (Nat × BitVec w)

/-- What an unlisted address reads as: the reset contents are "unspecified: any value" (R60), and a memory that holds
anything else lists it. -/
def Memory.unlisted (w : Nat) : BitVec w := 0#w

/-- One unit at an address. No read has a side effect (R87). -/
def Memory.read {w : Nat} : Memory w → Nat → BitVec w
  | [], _ => Memory.unlisted w
  | (k, v) :: rest, a => if a = k then v else Memory.read rest a

/-- Store one unit, keeping the canonical form. -/
def Memory.write {w : Nat} : Memory w → Nat → BitVec w → Memory w
  | [], a, v => if v = Memory.unlisted w then [] else [(a, v)]
  | (k, x) :: rest, a, v =>
    if a < k then (if v = Memory.unlisted w then (k, x) :: rest else (a, v) :: (k, x) :: rest)
    else if a = k then (if v = Memory.unlisted w then rest else (a, v) :: rest)
    else (k, x) :: Memory.write rest a v

/-- The canonical form: addresses strictly rising, no entry equal to what an unlisted address reads as. -/
abbrev Memory.wf {w : Nat} (m : Memory w) : Prop :=
  m.Pairwise (fun c d => c.1 < d.1) ∧ ∀ c ∈ m, c.2 ≠ Memory.unlisted w

/-- Canonical form, with every address inside a space of `size` units. -/
abbrev Memory.wfBelow {w : Nat} (size : Nat) (m : Memory w) : Prop :=
  Memory.wf m ∧ ∀ c ∈ m, c.1 < size

/-- The canonical form of any list of contents, addresses outside the space dropped; the first entry of an address
counts. -/
def Memory.canon {w : Nat} (size : Nat) : Memory w → Memory w
  | [] => []
  | (a, v) :: rest => if a < size then Memory.write (Memory.canon size rest) a v else Memory.canon size rest

/-- A 2-byte read: `byte[addr] + 256 * byte[addr+1]` (R72). -/
def Memory.readHalf (m : Memory 8) (a : Nat) : Half := Memory.read m (a + 1) ++ Memory.read m a

/-- A 2-byte store, in the same order (R72). -/
def Memory.writeHalf (m : Memory 8) (a : Nat) (v : Half) : Memory 8 :=
  Memory.write (Memory.write m a (v.extractLsb' 0 8)) (a + 1) (v.extractLsb' 8 8)

/-- The number of cells of `OUT`: `SCREEN_H` rows of `SCREEN_W` (R79). -/
def outCells : Nat := cfg.screenH * cfg.screenW

/-- The place of the cell `OUT[row][col]`: rows of `SCREEN_W` cells one after another (R79). -/
def outIndex (row col : Nat) : Nat := row * cfg.screenW + col

/-! ### Tables of fixed length -/

/-- The entry that a `k`-bit number names in a table of `2 ^ k` entries. -/
def Tab.get {α : Type} {n k : Nat} (v : Vector α n) (i : BitVec k) (h : 2 ^ k = n := by rfl) : α :=
  v[i.toNat]'(h ▸ i.isLt)

/-- Replace that entry. -/
def Tab.set {α : Type} {n k : Nat} (v : Vector α n) (i : BitVec k) (a : α) (h : 2 ^ k = n := by rfl) : Vector α n :=
  v.set i.toNat a (h ▸ i.isLt)

/-- `f` applied to every entry of a list and its index, the first index being `i`. -/
def Tab.mapFrom {α : Type} (f : Nat → α → α) : Nat → List α → List α
  | _, [] => []
  | i, a :: rest => f i a :: Tab.mapFrom f (i + 1) rest

theorem Tab.length_mapFrom {α : Type} (f : Nat → α → α) (l : List α) : ∀ i, (Tab.mapFrom f i l).length = l.length := by
  induction l with
  | nil => intro i; rfl
  | cons a rest ih => intro i; simp [Tab.mapFrom, ih]

/-- `f` applied to every entry of a table and its index. -/
def Tab.mapIdx {α : Type} {n : Nat} (f : Nat → α → α) (v : Vector α n) : Vector α n :=
  ⟨⟨Tab.mapFrom f 0 v.toArray.toList⟩, by simp [Tab.length_mapFrom]⟩

/-- The entry at an index that the rules keep in range, and a default elsewhere. -/
def Tab.at {α : Type} {n : Nat} (v : Vector α n) (i : Nat) (default : α) : α := if h : i < n then v[i] else default

end Sys2Proof.Machine
end

