-- ==== Sys2Proof/Machine/State.lean ====
section
/-! DEFINITION. The state of the machine: every piece of state that spec/10_state.md gives it, host-owned and
block-owned, and two fields of the model's own (`inbox`, `readData`). `State.launch` is the reset state of rule R60 for
any contents of the memories it leaves open; `State.reset` is the one of them that the model names. -/

namespace Sys2Proof.Machine

/-- The state. -/
structure State where
  /-- `REG`, `OAM`, `OBJAFF`, `VRAM`, `PAL`: written by the host alone (R21) -/
  host : HostMem
  /-- `COLSET[x]` (R39) -/
  colset : Vector SlotSet 240
  /-- `ROWSET[y]` (R39) -/
  rowset : Vector SlotSet 160
  /-- `OBJC[s]` (R40) -/
  objc : Vector ObjCache 128
  /-- `QSET` (R22, R23; registers 8 to 11) -/
  qset : SlotSet
  /-- `QRES` (R22; register 2) -/
  qres : QRes
  /-- `ORES` (R22; register 3) -/
  ores : ORes
  /-- `BRES` (R22; register 4) -/
  bres : BRes
  /-- `WRES` (R22; register 5) -/
  wres : LayerMask
  /-- `CRES` (R22; register 6) -/
  cres : Half
  /-- `FRES.flush` (R22; register 7) -/
  flush : Bool
  /-- `ACC[k]` (R24; registers 12 to 15) -/
  acc : Vector Acc 2
  /-- `BU.state` and `BU.slot` (R45, R46; registers 16 to 18) -/
  bu : BlendUnit
  /-- `SNAP` (R44; register 20) -/
  snap : Snap
  /-- `DIRTY` (R50; register 19) -/
  dirty : DirtySet
  /-- `FAULT` (R55; register 0) -/
  fault : FaultSet
  /-- `FAULT_CMD` (R55; register 1) -/
  faultCmd : Word
  /-- `OUT` (R79), the cell of row `r` and column `c` at `outIndex r c` -/
  out : List (Nat × BitVec 16)
  /-- the host's transactions still to come, the next one first: the model's own field (notes/assumptions/1.md) -/
  inbox : List HostTxn
  /-- what the last transaction on the result read port delivered: the model's own field (notes/assumptions/6.md) -/
  readData : Word
deriving DecidableEq, Repr

/-- Why a step stops. No command stops the machine (R301, R293): a precondition violation sets a bit of `FAULT` and the
machine goes on. Only a transaction of the host that names a place that does not exist stops it. -/
inductive Fault where
  /-- raised by `hostStore` for a store at an address outside its space (R70, R71, R78 give the sizes); safe -/
  | storeOutsideSpace
  /-- raised by `hostStore` for a 2-byte store at an odd address (R73 defines no misaligned access); safe -/
  | misalignedStore
  /-- raised by `hostReadOut` for a row or column that `OUT` does not have (R79); safe -/
  | readOutsideOut
deriving DecidableEq, Repr

/-- Why a step has no meaning. -/
inductive Refusal where
  /-- raised by `exec` for an instruction without a meaning; none is left; safe -/
  | notModelled (mnemonic : String)
deriving DecidableEq, Repr

/-- The three outcomes of a step of this machine. -/
abbrev Outcome := Host.Outcome State Fault Refusal

/-- The unset slot value (R46): `prio = 7` is `PRIO_UNSET`, `layer = 7` is none. -/
def Layer.unset : Layer :=
  { color := 0, prio := 7, tgtA := false, tgtB := false, blendedObj := false, layer := 7 }

/-- A slot of the geometry cache with every field 0: a hidden slot (R60). -/
def ObjCache.zero : ObjCache :=
  { texW := 0, texH := 0, rectX := 0, rectY := 0, rectW := 0, rectH := 0, cx := 0, cy := 0,
    clipX0 := 0, clipX1 := 0, clipY0 := 0, clipY1 := 0 }

/-- The host-owned memories in canonical form. -/
def HostMem.canon (m : HostMem) : HostMem :=
  { m with vram := Memory.canon cfg.vramSize m.vram, pal := Memory.canon palSize m.pal }

/-- The reset state (R60): every block-owned piece of state at the value of the table, host-owned memories and `OUT` as
`m` says ("unspecified: any value", `RESET_MEM`), and `inbox` the transactions that follow. -/
def State.launch (m : LaunchMem) (inbox : List HostTxn) : State where
  host := HostMem.canon m.host
  colset := Vector.replicate 240 0
  rowset := Vector.replicate 160 0
  objc := Vector.replicate 128 ObjCache.zero
  qset := 0
  qres := { valid := false, slot := 0 }
  ores := { color := 0, prio := 0, semi := false, objwin := false, found := false }
  bres := { color := 0, valid := false }
  wres := { bg := 0, obj := false, blend := false }
  cres := 0
  flush := false
  acc := Vector.replicate 2 { x := 0, y := 0 }
  bu := { state := .reset, slot0 := Layer.unset, slot1 := Layer.unset }
  snap := { tag := 0, en := 0, mos := 0, granH := 0, granV := 0, page := false }
  dirty := BitVec.allOnes 21
  fault := 0
  faultCmd := 0
  out := Memory.canon outCells m.out
  inbox := inbox
  readData := 0

/-- A layer-enable mask of zeros. -/
def LayerMask.zero : LayerMask := { bg := 0, obj := false, blend := false }

/-- `REG` with every field 0. -/
def Reg.zero : Reg where
  dispcnt := { mode := 0, page := false, obj1d := false, forcedBlank := false, bgEnable := 0, winEnable := 0,
               objwinEnable := false }
  bgcnt := Vector.replicate 4
    { priority := 0, charBase := 0, mosaic := false, color8 := false, screenBase := 0, wrap := false, size := 0 }
  bgHofs := Vector.replicate 4 0
  bgVofs := Vector.replicate 4 0
  aff := Vector.replicate 2 { pa := 0, pb := 0, pc := 0, pd := 0, x := 0, y := 0 }
  win := Vector.replicate 2 { left := 0, right := 0, top := 0, bottom := 0 }
  winin := Vector.replicate 2 LayerMask.zero
  winobj := LayerMask.zero
  winout := LayerMask.zero
  mosaic := { bgH := 0, bgV := 0, objH := 0, objV := 0 }
  bldcnt := { mode := 0, targetA := 0, targetB := 0 }
  eva := 0
  evb := 0
  evy := 0

/-- A sprite descriptor with every field 0. -/
def ObjAttr.zero : ObjAttr :=
  { y := 0, x := 0, affine := false, doubleSize := false, gfxMode := 0, mosaic := false, color8 := false, shape := 0,
    size := 0, hflip := false, vflip := false, affGroup := 0, tile := 0, priority := 0, palette := 0 }

/-- Every host-owned location and every cell of `OUT` zero: the value of `RESET_MEM` that `State.reset` takes (DESIGN
CHOICE, notes/assumptions/3.md: the spec leaves it open). -/
def LaunchMem.zero : LaunchMem where
  host :=
    { reg := Reg.zero, oam := Vector.replicate 128 ObjAttr.zero,
      objAff := Vector.replicate 32 { pa := 0, pb := 0, pc := 0, pd := 0 }, vram := [], pal := [] }
  out := []

/-- The machine right after reset, no transaction yet issued. The block-owned state is that of R60; what R60 leaves open
is zero here by the model's choice, and `State.launch` is the reset state for every other choice. -/
def State.reset : State := State.launch LaunchMem.zero []

end Sys2Proof.Machine
end

