-- ==== Sys2Proof/Machine/Ops.lean ====
section
/-! DEFINITION. The operations every family shares: the number operations of spec/00_scope.md rule R8, colour channels
(R10), the set operations of spec/40_visibility_index.md rule R146, and the block's one exception mechanism, taking a
fault (spec/60_exceptions.md rules R293, R294). There is no return from a fault (R299): no command clears `FAULT` or
`FAULT_CMD`, and the next command executes normally. -/

namespace Sys2Proof.Machine

/-! ### Numbers (R8) -/

/-- `v >> n` on integers: the floor of `v / 2^n`. -/
def floorShift (v : Int) (n : Nat) : Int := v / 2 ^ n

/-- `clamp(v, 0, hi)`. -/
def clampTo (hi : Nat) (v : Int) : Nat := (min (max v 0) hi).toNat

/-- Bit `n` of an indexed group of flags. -/
def bitOf {w k : Nat} (v : BitVec w) (n : BitVec k) : Bool := v.getLsbD n.toNat

/-- `v` with bit `n` replaced. -/
def setBit {w : Nat} (v : BitVec w) (n : Nat) (b : Bool) : BitVec w :=
  if b then v ||| (1#w <<< n) else v &&& ~~~(1#w <<< n)

/-! ### Colours (R10) -/

/-- `ch(c, i)`: channel `i` of a colour. -/
def channel (c : Colour) (i : Nat) : Nat := (c.extractLsb' (5 * i) 5).toNat

/-- `rgb(c0, c1, c2) = {c2, c1, c0}`. -/
def packRgb (c0 c1 c2 : Nat) : Colour := BitVec.ofNat 5 c2 ++ BitVec.ofNat 5 c1 ++ BitVec.ofNat 5 c0

/-! ### Sets of slots (R146) -/

/-- Insert: `v[s] <- 1`. -/
def insertSlot (s : SlotNo) (v : SlotSet) : SlotSet := setBit v s.toNat true

/-- Remove: `v[s] <- 0`. -/
def removeSlot (s : SlotNo) (v : SlotSet) : SlotSet := setBit v s.toNat false

/-- The slots in ascending order. -/
def allSlots : List SlotNo := (List.range 128).map (BitVec.ofNat 7)

/-- `lowest(v)`, the least member; none of the empty set. -/
def lowest (v : SlotSet) : Option SlotNo := allSlots.find? (bitOf v)

/-- `f` applied to the sets at the indexes in `[lo, hi)`, the loops of R142 and R145. -/
def overRange {n : Nat} (f : SlotSet → SlotSet) (lo hi : Nat) (v : Vector SlotSet n) : Vector SlotSet n :=
  Tab.mapIdx (fun i b => if lo ≤ i ∧ i < hi then f b else b) v

/-! ### Taking a fault (R293) -/

/-- `raise F(w)`: the bits of every condition that applies are set (R294), and the command word is kept if `FAULT` was
0; nothing else changes. -/
def raise (bits : FaultSet) (w : Word) (s : State) : State :=
  { s with fault := s.fault ||| bits, faultCmd := if s.fault = 0#5 then w else s.faultCmd }

/-- A command whose fault conditions are `bits` and whose effect is `s'`: "All fault conditions of a command are tested
before its first write, so faults are precise: a command either faults and does nothing but (1) and (2), or completes
and leaves `FAULT` alone" (R293). The word recorded is the command's own. -/
def guarded (bits : FaultSet) (i : Instr) (s s' : State) : State := if bits = 0#5 then s' else raise bits (encode i) s

end Sys2Proof.Machine
end

