-- ==== Sys2Proof/Machine/Operands.lean ====
section
/-! DEFINITION. Effective addresses and the values they fetch: the size tables (spec/30_encoding.md rules R113, R114),
the memory-read helpers (spec/20_memory.md rules R88 to R90), mosaic snapping (spec/41_sprite_pixel_sampler.md rule
R164), and sprite geometry (spec/40_visibility_index.md rules R140, R141, R143, R144). -/

namespace Sys2Proof.Machine

/-! ### Tables -/

/-- `ObjDim(shape, size)`, width and height in pixels (R113). -/
def objDim (shape size : BitVec 2) : Nat × Nat := Tab.get (Tab.get cfg.objDim shape) size

/-- `TileBgDim(size)`, width and height in pixels (R114). -/
def tileBgDim (size : BitVec 2) : Nat × Nat := Tab.get cfg.tileBgDim size

/-- `TileBgBlock(size, bx, by)` (R114). -/
def tileBgBlock (size : BitVec 2) (bx by' : Nat) : Nat :=
  match size.toNat with
  | 0 => 0
  | 1 => bx
  | 2 => by'
  | _ => 2 * by' + bx

/-- `AffBgDim(size)` (R114). -/
def affBgDim (size : BitVec 2) : Nat := Tab.get cfg.affBgDim size

/-! ### Reading `VRAM` and `PAL` -/

/-- The region `[lo, hi)` a texel read must fall in (R88). -/
structure Region where
  lo : Nat
  hi : Nat
deriving DecidableEq, Repr

/-- The background region of `VRAM` (R75, R77). -/
def bgRegion : Region := { lo := 0, hi := cfg.bgVramSize }

/-- The sprite tile region of `VRAM` (R75, R165). -/
def objRegion : Region := { lo := cfg.objTileBase, hi := cfg.vramSize }

/-- A read that the region confines. -/
def readIn (vram : Memory 8) (r : Region) (a : Nat) : Option Byte :=
  if a < r.lo ∨ r.hi ≤ a then none else some (Memory.read vram a)

/-- `TexelIndex(base, bpp8, px, py, lo, hi)`: a colour index, 0 to 255 (R88). -/
def texelIndex (vram : Memory 8) (base : Nat) (bpp8 : Bool) (px py : Nat) (r : Region) : Option Nat :=
  if bpp8 then (readIn vram r (base + py * 8 + px)).map (·.toNat)
  else (readIn vram r (base + py * 4 + px / 2)).map fun b =>
    if px % 2 = 1 then (b.extractLsb' 4 4).toNat else (b.extractLsb' 0 4).toNat

/-- `PalColor(bank, i)`: bank 0 is the backgrounds', bank 1 the objects' (R71, R89); bit 15 is ignored. -/
def palColor (pal : Memory 8) (bank i : Nat) : Colour := (Memory.readHalf pal (bank * 0x200 + 2 * i)).extractLsb' 0 15

/-- The colour of a non-zero index: an entry of the large palette, or of small palette `pal4` (R90). -/
def indexColor (pal : Memory 8) (bank : Nat) (bpp8 : Bool) (pal4 idx : Nat) : Colour :=
  if bpp8 then palColor pal bank idx else palColor pal bank (16 * pal4 + idx)

/-- `TexelColor(bank, bpp8, pal4, idx)`: "Color index 0 is transparent" (R90). -/
def texelColor (pal : Memory 8) (bank : Nat) (bpp8 : Bool) (pal4 : Nat) : Option Nat → Option Colour
  | none => none
  | some idx => if idx = 0 then none else some (indexColor pal bank bpp8 pal4 idx)

/-! ### Mosaic (R164, R189) -/

/-- `MosaicSnap(v, g) = v - (v mod (g + 1))`, with the remainder that `MOSAIC_MOD` names. -/
def mosaicSnap (c : Config) (v : Int) (g : BitVec 4) : Int :=
  match c.mosaicMod with
  | .floor => v - v % (g.toNat + 1)
  | .trunc => v - Int.tmod v (g.toNat + 1)

/-- Snap a pair of coordinates if the mosaic flag is set. -/
def mosaicPair (on : Bool) (gh gv : BitVec 4) (p : Int × Int) : Int × Int :=
  if on then (mosaicSnap cfg p.1 gh, mosaicSnap cfg p.2 gv) else p

/-! ### Sprite geometry -/

/-- `SpriteSize(a)`: texture size and screen rectangle size, `(tw, th, rw, rh)` (R140). -/
def spriteSize (a : ObjAttr) : Nat × Nat × Nat × Nat :=
  let d := objDim a.shape a.size
  if a.doubleSize then (d.1, d.2, 2 * d.1, 2 * d.2) else (d.1, d.2, d.1, d.2)

/-- The left edge: `sext_9(a.x)` (R141). -/
def spriteX (a : ObjAttr) : Int := a.x.toInt

/-- `SpriteY(a, rh)`: sign-extended, unless that puts the rectangle entirely above row 0 (R143). -/
def spriteY (a : ObjAttr) (rh : Nat) : Int := if a.y.toInt + rh ≤ 0 then a.y.toNat else a.y.toInt

/-- The cache entry `MARK_DRAWN` fills: rectangle, centre, clipped bounds (R142, R144). -/
def geometry (a : ObjAttr) : ObjCache :=
  let (tw, th, rw, rh) := spriteSize a
  let x0 := spriteX a
  let y0 := spriteY a rh
  { texW := tw, texH := th, rectX := x0, rectY := y0, rectW := rw, rectH := rh,
    cx := x0 + (rw / 2 : Nat), cy := y0 + (rh / 2 : Nat),
    clipX0 := clampTo cfg.screenW x0, clipX1 := clampTo cfg.screenW (x0 + rw),
    clipY0 := clampTo cfg.screenH y0, clipY1 := clampTo cfg.screenH (y0 + rh) }

end Sys2Proof.Machine
end

