-- ==== Sys2Proof/Machine/Flags.lean ====
section
/-! DEFINITION. The conditions that commands compute: the fault bits (spec/10_state.md rule R55, spec/60_exceptions.md
rules R290 to R296), the order of the blend unit (spec/44_priority_blend_engine.md rule R220), the drawn flag (R26), and
the dirty bits (R50). -/

namespace Sys2Proof.Machine

/-! ### Fault bits (R55) -/

/-- `FAULT` bit 0 (R290). -/
def badCommandBit : FaultSet := 0b00001

/-- `FAULT` bit 1 (R292). -/
def blendOrderBit : FaultSet := 0b00010

/-- `FAULT` bit 2 (R291). -/
def blendPriorityBit : FaultSet := 0b00100

/-- `FAULT` bit 3 (R295). -/
def reservedModeBit : FaultSet := 0b01000

/-- `FAULT` bit 4 (R296). -/
def operandRangeBit : FaultSet := 0b10000

/-- A fault bit if its condition holds. "every condition that applies sets its bit in the same command" (R294): the bits
of a command's conditions are joined with `|||`. -/
def bitIf (c : Bool) (b : FaultSet) : FaultSet := if c then b else 0#5

/-- "Raised by ... when `REG.dispcnt.mode` is 6 or 7" (R295). -/
def modeFault (s : State) : FaultSet := bitIf (5 < s.host.reg.dispcnt.mode.toNat) reservedModeBit

/-- "Raised by `RENDER_ROW y` when `y >= SCREEN_H`" (R296). -/
def rowFault (y : BitVec 8) : FaultSet := bitIf (cfg.screenH ≤ y.toNat) operandRangeBit

/-- "The valid range is 0 to `PRIO_MAX`" (R291). -/
def priorityFault (prio : BitVec 3) : FaultSet := bitIf (cfg.prioMax < prio.toNat) blendPriorityBit

/-! ### The order of the blend unit (R45, R220) -/

/-- The rank of a state (R45). -/
def BuState.rank : BuState → Nat
  | .reset => 0
  | .objectAdded => 1
  | .bg0Added => 2
  | .bg1Added => 3
  | .bg2Added => 4
  | .bg3Added => 5
  | .backdropAdded => 6
  | .composited => 7

/-- The state that adding background `n` leaves (R220). -/
def bgAdded (n : BitVec 2) : BuState :=
  match n.toNat with
  | 0 => .bg0Added
  | 1 => .bg1Added
  | 2 => .bg2Added
  | _ => .bg3Added

/-- `BLEND_ORDER` unless the command is legal (R220, R292). -/
def orderFault (legal : Bool) : FaultSet := bitIf (!legal) blendOrderBit

/-! ### Status values -/

/-- drawn(s): "the non-zero size sentinel" (R26). -/
def drawn (c : ObjCache) : Bool := c.texW != 0

/-! ### Dirty bits (R50) -/

/-- The mask of one dirty bit. -/
def dirtyBit (n : Nat) : DirtySet := 1#21 <<< n

/-- A mask if its condition holds. -/
def dirtyIf (c : Bool) (m : DirtySet) : DirtySet := if c then m else 0#21

/-- bit 0 -/
def ioDispcnt : DirtySet := dirtyBit 0
/-- bit 1 -/
def ioBlend : DirtySet := dirtyBit 1
/-- bits 2 to 5 -/
def ioBgOffset (n : Nat) : DirtySet := dirtyBit (2 + n)
/-- bit 6 -/
def compWindow : DirtySet := dirtyBit 6
/-- bits 7 and 8 -/
def compAffine (k : Nat) : DirtySet := dirtyBit (7 + k)
/-- bit 9 -/
def palBg : DirtySet := dirtyBit 9
/-- bit 10 -/
def palObj : DirtySet := dirtyBit 10
/-- bits 11 to 14 -/
def vramBgBlock (b : Nat) : DirtySet := dirtyBit (11 + b)
/-- bit 15 -/
def vramBitmap3 : DirtySet := dirtyBit 15
/-- bits 16 and 17 -/
def vramBitmap4 (p : Nat) : DirtySet := dirtyBit (16 + p)
/-- bits 18 and 19 -/
def vramBitmap5 (p : Nat) : DirtySet := dirtyBit (18 + p)
/-- bit 20 -/
def vramObj : DirtySet := dirtyBit 20

end Sys2Proof.Machine
end

