-- ==== Sys2Proof/Machine/Visibility.lean ====
section
/-! DEFINITION. The visibility index: `MARK_DRAWN`, `MARK_HIDDEN`, `QUERY`, `QPOP` (spec/40_visibility_index.md). -/

namespace Sys2Proof.Machine

/-- The sets and the cache entry of slot `slot` filled from the geometry `g` (R142, last lines). -/
def fillSlot (slot : SlotNo) (g : ObjCache) (s : State) : State :=
  { s with
    colset := overRange (insertSlot slot) g.clipX0 g.clipX1 s.colset
    rowset := overRange (insertSlot slot) g.clipY0 g.clipY1 s.rowset
    objc := Tab.set s.objc slot g }

/-- The three early returns of `MARK_DRAWN`: already drawn, non-affine with double-size, reserved shape (R142). -/
def markDrawnSkips (a : ObjAttr) (c : ObjCache) : Bool :=
  drawn c || (!a.affine && a.doubleSize) || (geometry a).texW == 0

/-- `MARK_DRAWN slot` (R142). -/
def markDrawn (slot : SlotNo) (s : State) : State :=
  let a := Tab.get s.host.oam slot
  if markDrawnSkips a (Tab.get s.objc slot) then s else fillSlot slot (geometry a) s

/-- `MARK_HIDDEN slot`: removal within the cached clipped bounds; the size sentinel becomes 0 (R145). -/
def markHidden (slot : SlotNo) (s : State) : State :=
  let c := Tab.get s.objc slot
  if drawn c then
    { s with
      colset := overRange (removeSlot slot) c.clipX0 c.clipX1 s.colset
      rowset := overRange (removeSlot slot) c.clipY0 c.clipY1 s.rowset
      objc := Tab.set s.objc slot { c with texW := 0, texH := 0 } }
  else s

/-- The set `QUERY x, y` loads: the intersection, empty off the screen (R147). -/
def visibleAt (s : State) (x y : Nat) : SlotSet :=
  if cfg.screenW ≤ x ∨ cfg.screenH ≤ y then 0#128 else Tab.at s.colset x 0#128 &&& Tab.at s.rowset y 0#128

/-- `QUERY x, y` (R147). -/
def query (x y : BitVec 8) (s : State) : State := { s with qset := visibleAt s x.toNat y.toNat }

/-- `QPOP` (R148). -/
def qpop (s : State) : State :=
  match lowest s.qset with
  | none => { s with qres := { valid := false, slot := 0 } }
  | some slot => { s with qset := removeSlot slot s.qset, qres := { valid := true, slot := slot } }

/-- `MARK_DRAWN` -/
def execMarkDrawn (slot : SlotNo) (s : State) : Outcome := .next (markDrawn slot s)

/-- `MARK_HIDDEN` -/
def execMarkHidden (slot : SlotNo) (s : State) : Outcome := .next (markHidden slot s)

/-- `QUERY` -/
def execQuery (x y : BitVec 8) (s : State) : Outcome := .next (query x y s)

/-- `QPOP` -/
def execQpop (s : State) : Outcome := .next (qpop s)

end Sys2Proof.Machine
end

