-- ==== Sys2Proof/Machine/ObjSampler.lean ====
section
/-! DEFINITION. The sprite pixel sampler: `SMP_OBJ` (spec/41_sprite_pixel_sampler.md). Geometry comes from the cache
`OBJC`, everything else from `OAM` as it is now (R161). -/

namespace Sys2Proof.Machine

/-- `((m0*dx + m1*dy) >> 8) + half`: one row of the matrix applied to the offset from the centre, one shift of the sum,
re-centred (R163). -/
def affineCoord (m0 m1 : BitVec 16) (dx dy : Int) (half : Nat) : Int :=
  floorShift (m0.toInt * dx + m1.toInt * dy) cfg.frac + half

/-- Whether a texture coordinate is inside the texture (R163). -/
def inTexture (c : ObjCache) (p : Int × Int) : Bool :=
  decide (0 ≤ p.1 ∧ p.1 < c.texW ∧ 0 ≤ p.2 ∧ p.2 < c.texH)

/-- `tex - 1 - t` if the flip flag is set. -/
def flipCoord (flip : Bool) (tex : Nat) (t : Int) : Int := if flip then tex - 1 - t else t

/-- `ObjTexCoord(a, c, x, y)` (R163). -/
def objTexCoord (aff : Vector ObjAffine 32) (a : ObjAttr) (c : ObjCache) (x y : Nat) : Option (Int × Int) :=
  if a.affine then
    let g := Tab.get aff a.affGroup
    let p := (affineCoord g.pa g.pb (x - c.cx) (y - c.cy) (c.texW / 2),
              affineCoord g.pc g.pd (x - c.cx) (y - c.cy) (c.texH / 2))
    if inTexture c p then some p else none
  else
    let p := ((x : Int) - c.rectX, (y : Int) - c.rectY)
    if inTexture c p then some (flipCoord a.hflip c.texW p.1, flipCoord a.vflip c.texH p.2) else none

/-- Whether the video mode is a bitmap mode: 3, 4 or 5 (R165). -/
def bitmapMode (mode : BitVec 3) : Bool := mode == 3#3 || mode == 4#3 || mode == 5#3

/-- The tile unit of texel `(tx, ty)` (R165). -/
def objUnit (obj1d : Bool) (a : ObjAttr) (c : ObjCache) (tx ty : Nat) : Nat :=
  let step := if a.color8 then 2 else 1
  if obj1d then a.tile.toNat + (ty / 8 * (c.texW / 8) + tx / 8) * step
  else a.tile.toNat + ty / 8 * 32 + tx / 8 * step

/-- `ObjTexel(a, c, tx, ty)` (R165). -/
def objTexel (h : HostMem) (a : ObjAttr) (c : ObjCache) (tx ty : Nat) : Option Nat :=
  if bitmapMode h.reg.dispcnt.mode && decide (a.tile.toNat < cfg.objBitmapMinTile) then none
  else
    let unit := objUnit h.reg.dispcnt.obj1d a c tx ty
    if cfg.objTileUnits ≤ unit then none
    else texelIndex h.vram (cfg.objTileBase + unit * cfg.objTileUnitBytes) a.color8 (tx % 8) (ty % 8) objRegion

/-- The colour index a candidate has at `(x, y)`: coordinates, mosaic, texel, in the order of R160. -/
def objIndex (h : HostMem) (a : ObjAttr) (c : ObjCache) (x y : Nat) : Option Nat :=
  (objTexCoord h.objAff a c x y).bind fun p =>
    let q := mosaicPair a.mosaic h.reg.mosaic.objH h.reg.mosaic.objV p
    objTexel h a c q.1.toNat q.2.toNat

/-- The opaque texel of a candidate: "A candidate whose texel index is `none` or 0 contributes nothing" (R166). -/
def objOpaque (h : HostMem) (a : ObjAttr) (c : ObjCache) (x y : Nat) : Option Nat :=
  (objIndex h a c x y).filter (· ≠ 0)

/-- What one candidate adds to the result (R160, R166, R167). -/
def candidate (h : HostMem) (a : ObjAttr) (c : ObjCache) (x y : Nat) (r : ORes) : ORes :=
  match objOpaque h a c x y with
  | none => r
  | some idx =>
    if a.gfxMode = 3#2 then r
    else if a.gfxMode = 2#2 then { r with objwin := true }
    else if !r.found || a.priority < r.prio then
      { r with found := true, prio := a.priority, semi := a.gfxMode == 1#2,
               color := indexColor h.pal 1 a.color8 a.palette.toNat idx }
    else r

/-- The result before any candidate (R160). -/
def noSprite : ORes := { color := 0, prio := 0, semi := false, objwin := false, found := false }

/-- The loop of R160 over the members of a set, lowest first; `n` bounds it ("the loop runs at most 128 times"). -/
def scan (s : State) (x y : Nat) : Nat → SlotSet → ORes → ORes
  | 0, _, r => r
  | n + 1, q, r =>
    match lowest q with
    | none => r
    | some slot =>
      scan s x y n (removeSlot slot q)
        (candidate s.host (Tab.get s.host.oam slot) (Tab.get s.objc slot) x y r)

/-- `SampleObject(x, y)` (R160). -/
def sampleObject (s : State) (x y : Nat) : ORes := scan s x y cfg.nObj (visibleAt s x y) noSprite

/-- `SMP_OBJ x, y`: the loop leaves `QSET` empty (R160). -/
def smpObj (x y : BitVec 8) (s : State) : State := { s with ores := sampleObject s x.toNat y.toNat, qset := 0#128 }

/-- `SMP_OBJ` -/
def execSmpObj (x y : BitVec 8) (s : State) : Outcome := .next (smpObj x y s)

end Sys2Proof.Machine
end

