-- ==== Sys2Proof/Machine/BgSamplers.lean ====
section
/-! DEFINITION. The background samplers: `SMP_TILE`, `SMP_AFF`, `SMP_BMP3`, `SMP_BMP4`, `SMP_BMP5`
(spec/42_bg_samplers.md). Each samples an optional colour and writes `BRES` (R198); none faults. -/

namespace Sys2Proof.Machine

/-- The shared write of `BRES` (R198). -/
def setBres (v : Option Colour) (s : State) : State :=
  match v with
  | none => { s with bres := { color := 0, valid := false } }
  | some c => { s with bres := { color := c, valid := true } }

/-! ### Tile backgrounds -/

/-- Map coordinates: scroll, mask to the map's size, mosaic (R181). `& (W - 1)` is `mod W`, `W` being a power of two. -/
def tileMapCoord (reg : Reg) (n : BitVec 2) (x y : Nat) : Nat × Nat :=
  let c := Tab.get reg.bgcnt n
  let d := tileBgDim c.size
  let mx := (x + (Tab.get reg.bgHofs n).toNat) % d.1
  let my := (y + (Tab.get reg.bgVofs n).toNat) % d.2
  let p := mosaicPair c.mosaic reg.mosaic.bgH reg.mosaic.bgV (mx, my)
  (p.1.toNat, p.2.toNat)

/-- The address of a map entry (R183). -/
def tileEntryAddr (c : BgCnt) (mx my : Nat) : Nat :=
  c.screenBase.toNat * 0x800 + tileBgBlock c.size (mx / 256) (my / 256) * 0x800
    + (my % 256 / 8 * 32 + mx % 256 / 8) * 2

/-- `7 - p` if the flip bit is set (R184). -/
def flipTexel (flip : Bool) (p : Nat) : Nat := if flip then 7 - p else p

/-- The colour at `(mx, my)` given the map entry `e`: `tile`[9:0], `hflip`[10], `vflip`[11], `palette`[15:12] (R112,
R184). -/
def tileTexel (h : HostMem) (c : BgCnt) (e : Half) (mx my : Nat) : Option Colour :=
  let px := flipTexel (e.getLsbD 10) (mx % 8)
  let py := flipTexel (e.getLsbD 11) (my % 8)
  let base := c.charBase.toNat * 0x4000 + (e.extractLsb' 0 10).toNat * (if c.color8 then 64 else 32)
  texelColor h.pal 0 c.color8 (e.extractLsb' 12 4).toNat (texelIndex h.vram base c.color8 px py bgRegion)

/-- `SampleTile(n, x, y)` (R180). -/
def sampleTile (h : HostMem) (n : BitVec 2) (x y : Nat) : Option Colour :=
  let c := Tab.get h.reg.bgcnt n
  let m := tileMapCoord h.reg n x y
  let ea := tileEntryAddr c m.1 m.2
  if cfg.bgVramSize ≤ ea then none else tileTexel h c (Memory.readHalf h.vram ea) m.1 m.2

/-! ### Affine backgrounds -/

/-- The background of affine group `k`: backgrounds 2 and 3 (R6, D9). -/
def affineBg (k : BitVec 1) : BitVec 2 := Tab.get cfg.affBg k

/-- Integer coordinates, wrapped or rejected (R189). -/
def affineMapCoord (reg : Reg) (n : BitVec 2) (fx fy : Int) : Option (Nat × Nat) :=
  let c := Tab.get reg.bgcnt n
  let d := affBgDim c.size
  let p := mosaicPair c.mosaic reg.mosaic.bgH reg.mosaic.bgV (floorShift fx cfg.frac, floorShift fy cfg.frac)
  if c.wrap then some ((p.1 % d).toNat, (p.2 % d).toNat)
  else if p.1 < 0 ∨ d ≤ p.1 ∨ p.2 < 0 ∨ d ≤ p.2 then none
  else some (p.1.toNat, p.2.toNat)

/-- The address of a map entry: one contiguous map of `(D/8)²` one-byte entries (R190). -/
def affineEntryAddr (c : BgCnt) (ix iy : Nat) : Nat :=
  c.screenBase.toNat * 0x800 + iy / 8 * (affBgDim c.size / 8) + ix / 8

/-- `SampleAffine(n, fx, fy)` (R188). -/
def sampleAffine (h : HostMem) (n : BitVec 2) (fx fy : Int) : Option Colour :=
  let c := Tab.get h.reg.bgcnt n
  (affineMapCoord h.reg n fx fy).bind fun p =>
    let ea := affineEntryAddr c p.1 p.2
    if cfg.bgVramSize ≤ ea then none
    else
      let t := (Memory.read h.vram ea).toNat
      texelColor h.pal 0 true 0
        (texelIndex h.vram (c.charBase.toNat * 0x4000 + t * 64) true (p.1 % 8) (p.2 % 8) bgRegion)

/-! ### Bitmap backgrounds -/

/-- The first byte of the displayed page (R199). -/
def pageBase (h : HostMem) : Nat := if h.reg.dispcnt.page then cfg.bmpPage1 else 0

/-- `SampleBitmap3(x, y)` (R195). -/
def sampleBitmap3 (h : HostMem) (x y : Nat) : Option Colour :=
  if cfg.bmp3W ≤ x ∨ cfg.bmp3H ≤ y then none
  else some ((Memory.readHalf h.vram ((y * cfg.bmp3W + x) * 2)).extractLsb' 0 15)

/-- `SampleBitmap4(x, y)` (R196). -/
def sampleBitmap4 (h : HostMem) (x y : Nat) : Option Colour :=
  if cfg.bmp4W ≤ x ∨ cfg.bmp4H ≤ y then none
  else texelColor h.pal 0 true 0 (some (Memory.read h.vram (pageBase h + y * cfg.bmp4W + x)).toNat)

/-- `SampleBitmap5(x, y)` (R197). -/
def sampleBitmap5 (h : HostMem) (x y : Nat) : Option Colour :=
  if cfg.bmp5W ≤ x ∨ cfg.bmp5H ≤ y then none
  else some ((Memory.readHalf h.vram (pageBase h + (y * cfg.bmp5W + x) * 2)).extractLsb' 0 15)

/-! ### The commands -/

/-- `SMP_TILE bg, x, y` (R180). -/
def smpTile (bg : BitVec 2) (x y : BitVec 8) (s : State) : State := setBres (sampleTile s.host bg x.toNat y.toNat) s

/-- `SMP_AFF bg`, at the background's accumulator (R188). -/
def smpAff (k : BitVec 1) (s : State) : State :=
  setBres (sampleAffine s.host (affineBg k) (Tab.get s.acc k).x.toInt (Tab.get s.acc k).y.toInt) s

/-- `SMP_BMP3 x, y` (R195). -/
def smpBmp3 (x y : BitVec 8) (s : State) : State := setBres (sampleBitmap3 s.host x.toNat y.toNat) s

/-- `SMP_BMP4 x, y` (R196). -/
def smpBmp4 (x y : BitVec 8) (s : State) : State := setBres (sampleBitmap4 s.host x.toNat y.toNat) s

/-- `SMP_BMP5 x, y` (R197). -/
def smpBmp5 (x y : BitVec 8) (s : State) : State := setBres (sampleBitmap5 s.host x.toNat y.toNat) s

/-- `SMP_TILE` -/
def execSmpTile (bg : BitVec 2) (x y : BitVec 8) (s : State) : Outcome := .next (smpTile bg x y s)

/-- `SMP_AFF` -/
def execSmpAff (k : BitVec 1) (s : State) : Outcome := .next (smpAff k s)

/-- `SMP_BMP3` -/
def execSmpBmp3 (x y : BitVec 8) (s : State) : Outcome := .next (smpBmp3 x y s)

/-- `SMP_BMP4` -/
def execSmpBmp4 (x y : BitVec 8) (s : State) : Outcome := .next (smpBmp4 x y s)

/-- `SMP_BMP5` -/
def execSmpBmp5 (x y : BitVec 8) (s : State) : Outcome := .next (smpBmp5 x y s)

end Sys2Proof.Machine
end

