-- ==== Sys2Proof/Machine/Window.lean ====
section
/-! DEFINITION. The window / mask evaluator: `WIN_EVAL` (spec/43_window_mask_eval.md). -/

namespace Sys2Proof.Machine

/-- Everything enabled (R213). -/
def allEnabled : LayerMask := { bg := 0b1111, obj := true, blend := true }

/-- Whether a rectangle contains a point; each range is half-open (R32, R212). -/
def WindowRect.contains (r : WindowRect) (x y : Nat) : Bool :=
  decide (r.left.toNat ≤ x ∧ x < r.right.toNat ∧ r.top.toNat ≤ y ∧ y < r.bottom.toNat)

/-- Whether window `w` is enabled and contains the point (R212). -/
def windowHolds (reg : Reg) (w : BitVec 1) (x y : Nat) : Bool :=
  bitOf reg.dispcnt.winEnable w && WindowRect.contains (Tab.get reg.win w) x y

/-- `WindowEval(x, y, ow)` (R210); `c.windowStub` selects the reference's behaviour (R211). -/
def windowEval (c : Config) (reg : Reg) (x y : Nat) (ow : Bool) : LayerMask :=
  if c.windowStub then allEnabled
  else if reg.dispcnt.winEnable = 0#2 ∧ reg.dispcnt.objwinEnable = false then allEnabled
  else if windowHolds reg 0#1 x y then Tab.get reg.winin 0#1
  else if windowHolds reg 1#1 x y then Tab.get reg.winin 1#1
  else if reg.dispcnt.objwinEnable && ow then reg.winobj
  else reg.winout

/-- `WIN_EVAL x, y, ow` (R210). -/
def winEval (x y : BitVec 8) (ow : Bool) (s : State) : State :=
  { s with wres := windowEval cfg s.host.reg x.toNat y.toNat ow }

/-- `WIN_EVAL` -/
def execWinEval (x y : BitVec 8) (ow : Bool) (s : State) : Outcome := .next (winEval x y ow s)

end Sys2Proof.Machine
end

