-- ==== Sys2Proof/Machine/Blend.lean ====
section
/-! DEFINITION. The priority and blend engine: `BLD_RESET`, `BLD_OBJ`, `BLD_BG0` to `BLD_BG3`, `BLD_BACKDROP`,
`BLD_COMPOSITE` (spec/44_priority_blend_engine.md). -/

namespace Sys2Proof.Machine

/-! ### Layers and slots -/

/-- `Layer(l, color, prio, blended)`: target membership is read from `REG.bldcnt` now (R221). -/
def layerOf (b : BldCnt) (l : BitVec 3) (color : Colour) (prio : BitVec 3) (blended : Bool) : Layer :=
  { color := color, prio := prio, tgtA := bitOf b.targetA l, tgtB := bitOf b.targetB l, blendedObj := blended,
    layer := l }

/-- The slots after a background layer is offered: demotion copies every field (R224, R234); every comparison is strict
(R233). -/
def offer (l : Layer) (bu : BlendUnit) : BlendUnit :=
  if l.prio < bu.slot0.prio then { bu with slot0 := l, slot1 := bu.slot0 }
  else if l.prio < bu.slot1.prio then { bu with slot1 := l }
  else bu

/-- The slots after the backdrop is offered: "only installed into whichever slot is still unfilled" (R229). -/
def offerBackdrop (l : Layer) (bu : BlendUnit) : BlendUnit :=
  if bu.slot0.prio = 7#3 then { bu with slot0 := l }
  else if bu.slot1.prio = 7#3 then { bu with slot1 := l }
  else bu

/-! ### Colour arithmetic (R231, R232) -/

/-- The requantisation of `n / 16`: `(n + 8) >> 4`, or without the half when `BLEND_ROUND` is `truncate`. -/
def requantise (c : Config) (n : Nat) : Nat :=
  match c.blendRound with
  | .halfUp => (n + 8) / 16
  | .truncate => n / 16

/-- A blend weight clamped to `[0, EV_MAX]`. -/
def weight (w : BitVec 5) : Nat := min w.toNat cfg.evMax

/-- A colour computed channel by channel. -/
def perChannel (f : Nat → Nat) : Colour := packRgb (f 0) (f 1) (f 2)

/-- `Alpha(top, bottom)`. -/
def alpha (c : Config) (eva evb : Nat) (top bottom : Colour) : Colour :=
  perChannel fun i => min 31 (requantise c (channel top i * eva + channel bottom i * evb))

/-- `Brighten(top)`. -/
def brighten (c : Config) (evy : Nat) (top : Colour) : Colour :=
  perChannel fun i => channel top i + requantise c ((31 - channel top i) * evy)

/-- `Darken(top)`. -/
def darken (c : Config) (evy : Nat) (top : Colour) : Colour :=
  perChannel fun i => requantise c (channel top i * (16 - evy))

/-- The colour `BLD_COMPOSITE blend_en` computes (R230). -/
def compositeColor (c : Config) (reg : Reg) (bu : BlendUnit) (blendEn : Bool) : Colour :=
  let s0 := bu.slot0
  let s1 := bu.slot1
  let pair := s0.tgtA && s1.tgtB
  let blended := alpha c (weight reg.eva) (weight reg.evb) s0.color s1.color
  if !blendEn then s0.color
  else if (s0.blendedObj || s1.blendedObj) && pair then blended
  else
    match reg.bldcnt.mode.toNat with
    | 0 => s0.color
    | 1 => if pair then blended else s0.color
    | 2 => if s0.tgtA then brighten c (weight reg.evy) s0.color else s0.color
    | _ => if s0.tgtA then darken c (weight reg.evy) s0.color else s0.color

/-! ### The commands -/

/-- `BLD_RESET` (R222). -/
def bldReset (s : State) : State :=
  { s with bu := { state := .reset, slot0 := Layer.unset, slot1 := Layer.unset } }

/-- `BLD_OBJ color, prio, semi` (R223). -/
def bldObj (color : Colour) (prio : BitVec 3) (semi : Bool) (s : State) : State :=
  guarded (priorityFault prio ||| orderFault (BuState.rank s.bu.state == 0)) (.bldObj color prio semi) s
    { s with bu := { s.bu with state := .objectAdded, slot0 := layerOf s.host.reg.bldcnt 4 color prio semi } }

/-- `AddBackground(n, color, prio)` (R224), for the command `i`. -/
def addBackground (i : Instr) (n : BitVec 2) (color : Colour) (prio : BitVec 3) (s : State) : State :=
  guarded (priorityFault prio ||| orderFault (decide (BuState.rank s.bu.state < 2 + n.toNat))) i s
    { s with
      bu := { offer (layerOf s.host.reg.bldcnt (n.setWidth 3) color prio false) s.bu with state := bgAdded n } }

/-- `BLD_BG0 color, prio` (R225). -/
def bldBg0 (color : Colour) (prio : BitVec 3) (s : State) : State := addBackground (.bldBg0 color prio) 0 color prio s

/-- `BLD_BG1 color, prio` (R226). -/
def bldBg1 (color : Colour) (prio : BitVec 3) (s : State) : State := addBackground (.bldBg1 color prio) 1 color prio s

/-- `BLD_BG2 color, prio` (R227). -/
def bldBg2 (color : Colour) (prio : BitVec 3) (s : State) : State := addBackground (.bldBg2 color prio) 2 color prio s

/-- `BLD_BG3 color, prio` (R228). -/
def bldBg3 (color : Colour) (prio : BitVec 3) (s : State) : State := addBackground (.bldBg3 color prio) 3 color prio s

/-- `BLD_BACKDROP color`: `prio` 4 is `PRIO_BACKDROP` (R229). -/
def bldBackdrop (color : Colour) (s : State) : State :=
  guarded (orderFault (decide (BuState.rank s.bu.state ≤ 5))) (.bldBackdrop color) s
    { s with
      bu := { offerBackdrop (layerOf s.host.reg.bldcnt 5 color 4 false) s.bu with state := .backdropAdded } }

/-- `BLD_COMPOSITE blend_en`; bit 15 of `CRES` is 0 (R230). -/
def bldComposite (blendEn : Bool) (s : State) : State :=
  guarded (orderFault (BuState.rank s.bu.state == 6)) (.bldComposite blendEn) s
    { s with
      cres := (compositeColor cfg s.host.reg s.bu blendEn).setWidth 16
      bu := { s.bu with state := .composited } }

/-- `BLD_RESET` -/
def execBldReset (s : State) : Outcome := .next (bldReset s)

/-- `BLD_OBJ` -/
def execBldObj (color : Colour) (prio : BitVec 3) (semi : Bool) (s : State) : Outcome :=
  .next (bldObj color prio semi s)

/-- `BLD_BG0` -/
def execBldBg0 (color : Colour) (prio : BitVec 3) (s : State) : Outcome := .next (bldBg0 color prio s)

/-- `BLD_BG1` -/
def execBldBg1 (color : Colour) (prio : BitVec 3) (s : State) : Outcome := .next (bldBg1 color prio s)

/-- `BLD_BG2` -/
def execBldBg2 (color : Colour) (prio : BitVec 3) (s : State) : Outcome := .next (bldBg2 color prio s)

/-- `BLD_BG3` -/
def execBldBg3 (color : Colour) (prio : BitVec 3) (s : State) : Outcome := .next (bldBg3 color prio s)

/-- `BLD_BACKDROP` -/
def execBldBackdrop (color : Colour) (s : State) : Outcome := .next (bldBackdrop color s)

/-- `BLD_COMPOSITE` -/
def execBldComposite (blendEn : Bool) (s : State) : Outcome := .next (bldComposite blendEn s)

end Sys2Proof.Machine
end

