-- ==== Sys2Proof/Machine/RowCompositor.lean ====
section
/-! DEFINITION. The row compositor: `ACC_SEED`, `ACC_STEP`, `RENDER_ROW` (spec/46_row_compositor.md). A pixel is written
with the commands of the other units, each with the semantics of its own rule (R275); `RENDER_ROW` runs to completion as
one step (R20). -/

namespace Sys2Proof.Machine

/-! ### Accumulators -/

/-- `ACC_SEED`: the sign-extended reference point of each group (R270). -/
def accSeed (s : State) : State :=
  let seed (a : BgAffine) : Acc := { x := a.x.signExtend 32, y := a.y.signExtend 32 }
  { s with
    acc := Tab.set (Tab.set s.acc 0#1 (seed (Tab.get s.host.reg.aff 0#1))) 1#1
      (seed (Tab.get s.host.reg.aff 1#1)) }

/-- One column delta `(pa, pc)` added, modulo 2^32 (R271). -/
def accAdvance (a : BgAffine) (c : Acc) : Acc := { x := c.x + a.pa.signExtend 32, y := c.y + a.pc.signExtend 32 }

/-- `ACC_STEP` (R271). -/
def accStep (s : State) : State :=
  let step (k : BitVec 1) : Acc := accAdvance (Tab.get s.host.reg.aff k) (Tab.get s.acc k)
  { s with acc := Tab.set (Tab.set s.acc 0#1 (step 0#1)) 1#1 (step 1#1) }

/-! ### One pixel -/

/-- The sampler that serves a background (R272). -/
inductive BgKind where
  | none
  | tile
  | affine (k : BitVec 1)
  | bitmap3
  | bitmap4
  | bitmap5
deriving DecidableEq, Repr

/-- `BgKind(m, n)` (R272). Modes 6 and 7 are reserved and never reach it (R295). -/
def bgKind (mode : BitVec 3) (n : BitVec 2) : BgKind :=
  match mode.toNat, n.toNat with
  | 0, _ => .tile
  | 1, 0 => .tile
  | 1, 1 => .tile
  | 1, 2 => .affine 0
  | 2, 2 => .affine 0
  | 2, 3 => .affine 1
  | 3, 2 => .bitmap3
  | 4, 2 => .bitmap4
  | 5, 2 => .bitmap5
  | _, _ => .none

/-- The sampler command of a kind (R275). -/
def sampleBg (kind : BgKind) (n : BitVec 2) (x y : BitVec 8) (s : State) : State :=
  match kind with
  | .none => s
  | .tile => smpTile n x y s
  | .affine k => smpAff k s
  | .bitmap3 => smpBmp3 x y s
  | .bitmap4 => smpBmp4 x y s
  | .bitmap5 => smpBmp5 x y s

/-- The blend command of a background. -/
def bldBg (n : BitVec 2) (color : Colour) (prio : BitVec 3) (s : State) : State :=
  match n.toNat with
  | 0 => bldBg0 color prio s
  | 1 => bldBg1 color prio s
  | 2 => bldBg2 color prio s
  | _ => bldBg3 color prio s

/-- Whether background `n` is sampled at this pixel: it exists in the mode, is enabled, and the window lets it through
(R275). Nothing is skipped for its priority (R274). -/
def bgActive (s : State) (n : BitVec 2) : Bool :=
  bgKind s.host.reg.dispcnt.mode n != .none && bitOf s.host.reg.dispcnt.bgEnable n && bitOf s.wres.bg n

/-- The body of the background loop (R275). -/
def bgLayer (x y : BitVec 8) (n : BitVec 2) (s : State) : State :=
  if bgActive s n then
    let s1 := sampleBg (bgKind s.host.reg.dispcnt.mode n) n x y s
    if s1.bres.valid then bldBg n s1.bres.color ((Tab.get s1.host.reg.bgcnt n).priority.setWidth 3) s1 else s1
  else s

/-- The object layer of a pixel (R275). -/
def objLayer (s : State) : State :=
  if s.ores.found && s.wres.obj then bldObj s.ores.color (s.ores.prio.setWidth 3) s.ores.semi s else s

/-- The backdrop colour, `PalColor(0, 0)` (R273). -/
def backdropColor (h : HostMem) : Colour := palColor h.pal 0 0

/-- `MemWrite(OUT, row, col, v)` (R79). -/
def writeOut (row col : Nat) (v : Half) (s : State) : State :=
  { s with out := Memory.write s.out (outIndex row col) v }

/-- The blend unit's part of a pixel: reset, layers in the fixed order, backdrop, composite (R275). -/
def pixelColour (x y : BitVec 8) (s : State) : State :=
  let s1 := smpObj x y s
  let s2 := objLayer (bldReset (winEval x y s1.ores.objwin s1))
  let s3 := bgLayer x y 3 (bgLayer x y 2 (bgLayer x y 1 (bgLayer x y 0 s2)))
  let s4 := bldBackdrop (backdropColor s3.host) s3
  bldComposite s4.wres.blend s4

/-- `Pixel(x, y)` (R275). -/
def pixel (y x : BitVec 8) (s : State) : State :=
  let s1 := pixelColour x y s
  accStep (writeOut y.toNat x.toNat s1.cres s1)

/-! ### One row -/

/-- The columns, left to right. -/
def columns : List (BitVec 8) := (List.range cfg.screenW).map (BitVec.ofNat 8)

/-- A black row (R276). -/
def blankRow (y : BitVec 8) (s : State) : State :=
  columns.foldl (fun t x => writeOut y.toNat x.toNat 0 t) s

/-- The row rendered pixel by pixel (R276). -/
def renderColumns (y : BitVec 8) (s : State) : State := columns.foldl (fun t x => pixel y x t) (accSeed s)

/-- `RENDER_ROW y`: both conditions are tested before any write and even when the row is blank (R276). -/
def renderRow (y : BitVec 8) (s : State) : State :=
  guarded (rowFault y ||| modeFault s) (.renderRow y) s
    (if s.host.reg.dispcnt.forcedBlank then blankRow y s else renderColumns y s)

/-- `ACC_SEED` -/
def execAccSeed (s : State) : Outcome := .next (accSeed s)

/-- `ACC_STEP` -/
def execAccStep (s : State) : Outcome := .next (accStep s)

/-- `RENDER_ROW` -/
def execRenderRow (y : BitVec 8) (s : State) : Outcome := .next (renderRow y s)

end Sys2Proof.Machine
end

