-- ==== Sys2Proof/Machine/DirtyTracker.lean ====
section
/-! DEFINITION. The dirty tracker: `START_FRAME`, `SHOULD_FLUSH` (spec/45_dirty_tracker.md). -/

namespace Sys2Proof.Machine

/-- `Tracked(m)`: the backgrounds a mode tracks, bit `n` for background `n` (R251, R44). -/
def tracked (mode : BitVec 3) : BitVec 4 :=
  match mode.toNat with
  | 0 => 0b1111
  | 1 => 0b0111
  | 2 => 0b1100
  | 3 => 0b0100
  | 4 => 0b0100
  | 5 => 0b0100
  | _ => 0

/-- The mosaic flags of the four backgrounds, bit `n` for background `n`. -/
def mosaicFlags (reg : Reg) : BitVec 4 :=
  let m (n : BitVec 2) : BitVec 1 := BitVec.ofBool (Tab.get reg.bgcnt n).mosaic
  m 3 ++ m 2 ++ m 1 ++ m 0

/-- `Snap(REG)`: a field the mode does not use is 0 (R252, R44). -/
def snapOf (reg : Reg) : Snap :=
  let m := reg.dispcnt.mode
  let t := tracked m
  let tiled := decide (m.toNat ≤ 2)
  { tag := m
    en := reg.dispcnt.bgEnable &&& t
    mos := if tiled then mosaicFlags reg &&& t else 0#4
    granH := if tiled then reg.mosaic.bgH else 0#4
    granV := if tiled then reg.mosaic.bgV else 0#4
    page := (m == 4#3 || m == 5#3) && reg.dispcnt.page }

/-- The four character blocks and the background palette, which a visible tile or affine background depends on (R254). -/
def tiledBits : DirtySet := vramBgBlock 0 ||| vramBgBlock 1 ||| vramBgBlock 2 ||| vramBgBlock 3 ||| palBg

/-- The bits of the visible backgrounds of each mode (R254). -/
def backgroundBits (reg : Reg) : DirtySet :=
  let en (n : BitVec 2) : Bool := bitOf reg.dispcnt.bgEnable n
  let p := reg.dispcnt.page.toNat
  match reg.dispcnt.mode.toNat with
  | 0 =>
    dirtyIf (en 0) (ioBgOffset 0) ||| dirtyIf (en 1) (ioBgOffset 1) ||| dirtyIf (en 2) (ioBgOffset 2)
      ||| dirtyIf (en 3) (ioBgOffset 3) ||| dirtyIf (en 0 || en 1 || en 2 || en 3) tiledBits
  | 1 =>
    dirtyIf (en 0) (ioBgOffset 0) ||| dirtyIf (en 1) (ioBgOffset 1) ||| dirtyIf (en 2) (compAffine 0)
      ||| dirtyIf (en 0 || en 1 || en 2) tiledBits
  | 2 => dirtyIf (en 2) (compAffine 0) ||| dirtyIf (en 3) (compAffine 1) ||| dirtyIf (en 2 || en 3) tiledBits
  | 3 => dirtyIf (en 2) vramBitmap3
  | 4 => dirtyIf (en 2) (vramBitmap4 p ||| palBg)
  | 5 => dirtyIf (en 2) (vramBitmap5 p)
  | _ => 0

/-- `Rel(REG)`, the relevant dirty bits (R254). -/
def relevantBits (reg : Reg) : DirtySet := ioDispcnt ||| ioBlend ||| compWindow ||| backgroundBits reg

/-- The comparison of `SHOULD_FLUSH` with the snapshot: tag, else enables, mosaic flags and page, and the granularity
when a visible background has mosaic on (R255). -/
def snapDiffers (cur old : Snap) : Bool :=
  if cur.tag ≠ old.tag then true
  else cur.en != old.en || cur.mos != old.mos || cur.page != old.page ||
    ((cur.en &&& cur.mos) != 0#4 && (cur.granH != old.granH || cur.granV != old.granV))

/-- `START_FRAME` (R253). -/
def startFrame (s : State) : State := guarded (modeFault s) .startFrame s { s with snap := snapOf s.host.reg }

/-- `SHOULD_FLUSH`: every relevant bit is cleared and the snapshot refreshed, whatever the answer (R255, R256). -/
def shouldFlush (s : State) : State :=
  let rel := relevantBits s.host.reg
  let cur := snapOf s.host.reg
  guarded (modeFault s) .shouldFlush s
    { s with flush := (s.dirty &&& rel) != 0#21 || snapDiffers cur s.snap, dirty := s.dirty &&& ~~~rel, snap := cur }

/-- `START_FRAME` -/
def execStartFrame (s : State) : Outcome := .next (startFrame s)

/-- `SHOULD_FLUSH` -/
def execShouldFlush (s : State) : Outcome := .next (shouldFlush s)

end Sys2Proof.Machine
end

