-- ==== Sys2Proof/Machine/HostPort.lean ====
section
/-! DEFINITION. The host's side of the ports (spec/30_encoding.md rule R100): stores into `REG`, `OAM`, `OBJAFF`,
`VRAM`, `PAL` by field and by raw word (R110, R111), the dirty-set port (R109), the result read port (R108), and the
dirty bits that the host owes the block for each store (spec/10_state.md rule R50). A store sets no dirty bit by itself:
"The block does not observe stores" (spec/70_reset_and_hazards.md rule R318). -/

namespace Sys2Proof.Machine

/-! ### Fields of `REG` (R28 to R36) -/

/-- An entry of a table replaced by a function of it. -/
def Tab.update {α : Type} {n k : Nat} (v : Vector α n) (i : BitVec k) (f : α → α) (h : 2 ^ k = n := by rfl) :
    Vector α n :=
  Tab.set v i (f (Tab.get v i h)) h

/-- A change of `REG.dispcnt`. -/
def onDispcnt (f : Dispcnt → Dispcnt) (r : Reg) : Reg := { r with dispcnt := f r.dispcnt }

/-- A change of `REG.bgcnt[n]`. -/
def onBgCnt (n : BitVec 2) (f : BgCnt → BgCnt) (r : Reg) : Reg := { r with bgcnt := Tab.update r.bgcnt n f }

/-- A change of `REG.aff[k]`. -/
def onAff (k : BitVec 1) (f : BgAffine → BgAffine) (r : Reg) : Reg := { r with aff := Tab.update r.aff k f }

/-- A change of `REG.win[w]`. -/
def onWin (w : BitVec 1) (f : WindowRect → WindowRect) (r : Reg) : Reg := { r with win := Tab.update r.win w f }

/-- A change of `REG.winin[w]`. -/
def onWinin (w : BitVec 1) (f : LayerMask → LayerMask) (r : Reg) : Reg := { r with winin := Tab.update r.winin w f }

/-- The store of a named field. -/
def putRegField : RegField → Reg → Reg
  | .mode v => onDispcnt fun d => { d with mode := v }
  | .page v => onDispcnt fun d => { d with page := v }
  | .obj1d v => onDispcnt fun d => { d with obj1d := v }
  | .forcedBlank v => onDispcnt fun d => { d with forcedBlank := v }
  | .bgEnable n v => onDispcnt fun d => { d with bgEnable := setBit d.bgEnable n.toNat v }
  | .winEnable w v => onDispcnt fun d => { d with winEnable := setBit d.winEnable w.toNat v }
  | .objwinEnable v => onDispcnt fun d => { d with objwinEnable := v }
  | .bgPriority n v => onBgCnt n fun c => { c with priority := v }
  | .bgCharBase n v => onBgCnt n fun c => { c with charBase := v }
  | .bgMosaic n v => onBgCnt n fun c => { c with mosaic := v }
  | .bgColor8 n v => onBgCnt n fun c => { c with color8 := v }
  | .bgScreenBase n v => onBgCnt n fun c => { c with screenBase := v }
  | .bgWrap n v => onBgCnt n fun c => { c with wrap := v }
  | .bgSize n v => onBgCnt n fun c => { c with size := v }
  | .bgHofs n v => fun r => { r with bgHofs := Tab.set r.bgHofs n v }
  | .bgVofs n v => fun r => { r with bgVofs := Tab.set r.bgVofs n v }
  | .affPa k v => onAff k fun a => { a with pa := v }
  | .affPb k v => onAff k fun a => { a with pb := v }
  | .affPc k v => onAff k fun a => { a with pc := v }
  | .affPd k v => onAff k fun a => { a with pd := v }
  | .affX k v => onAff k fun a => { a with x := v }
  | .affY k v => onAff k fun a => { a with y := v }
  | .winLeft w v => onWin w fun b => { b with left := v }
  | .winRight w v => onWin w fun b => { b with right := v }
  | .winTop w v => onWin w fun b => { b with top := v }
  | .winBottom w v => onWin w fun b => { b with bottom := v }
  | .wininBg w n v => onWinin w fun m => { m with bg := setBit m.bg n.toNat v }
  | .wininObj w v => onWinin w fun m => { m with obj := v }
  | .wininBlend w v => onWinin w fun m => { m with blend := v }
  | .winobjBg n v => fun r => { r with winobj := { r.winobj with bg := setBit r.winobj.bg n.toNat v } }
  | .winobjObj v => fun r => { r with winobj := { r.winobj with obj := v } }
  | .winobjBlend v => fun r => { r with winobj := { r.winobj with blend := v } }
  | .winoutBg n v => fun r => { r with winout := { r.winout with bg := setBit r.winout.bg n.toNat v } }
  | .winoutObj v => fun r => { r with winout := { r.winout with obj := v } }
  | .winoutBlend v => fun r => { r with winout := { r.winout with blend := v } }
  | .mosaicBgH v => fun r => { r with mosaic := { r.mosaic with bgH := v } }
  | .mosaicBgV v => fun r => { r with mosaic := { r.mosaic with bgV := v } }
  | .mosaicObjH v => fun r => { r with mosaic := { r.mosaic with objH := v } }
  | .mosaicObjV v => fun r => { r with mosaic := { r.mosaic with objV := v } }
  | .bldMode v => fun r => { r with bldcnt := { r.bldcnt with mode := v } }
  | .targetA l v => fun r => { r with bldcnt := { r.bldcnt with targetA := setBit r.bldcnt.targetA l.val v } }
  | .targetB l v => fun r => { r with bldcnt := { r.bldcnt with targetB := setBit r.bldcnt.targetB l.val v } }
  | .eva v => fun r => { r with eva := v }
  | .evb v => fun r => { r with evb := v }
  | .evy v => fun r => { r with evy := v }

/-! ### Raw words of `REG` (R110) -/

/-- DISPCNT. -/
def rawDispcnt (v : Half) : Dispcnt :=
  { mode := v.extractLsb' 0 3, page := v.getLsbD 4, obj1d := v.getLsbD 6, forcedBlank := v.getLsbD 7,
    bgEnable := v.extractLsb' 8 4, winEnable := v.extractLsb' 13 2, objwinEnable := v.getLsbD 15 }

/-- BGnCNT. -/
def rawBgCnt (v : Half) : BgCnt :=
  { priority := v.extractLsb' 0 2, charBase := v.extractLsb' 2 2, mosaic := v.getLsbD 6, color8 := v.getLsbD 7,
    screenBase := v.extractLsb' 8 5, wrap := v.getLsbD 13, size := v.extractLsb' 14 2 }

/-- One of the two masks of WININ and WINOUT. -/
def rawMask (v : BitVec 6) : LayerMask :=
  { bg := v.extractLsb' 0 4, obj := v.getLsbD 4, blend := v.getLsbD 5 }

/-- The low 16 bits of a 28-bit reference point replaced. -/
def putLow (x : BitVec 28) (v : Half) : BitVec 28 := x.extractLsb' 16 12 ++ v

/-- The high 12 bits of a 28-bit reference point replaced; bits 31:28 of the raw word are not listed. -/
def putHigh (x : BitVec 28) (v : Half) : BitVec 28 := v.extractLsb' 0 12 ++ x.extractLsb' 0 16

/-- A row of an affine group, at offset `o` from its first word. -/
def putAffHalf (o : Nat) (v : Half) (a : BgAffine) : BgAffine :=
  match o with
  | 0x0 => { a with pa := v }
  | 0x2 => { a with pb := v }
  | 0x4 => { a with pc := v }
  | 0x6 => { a with pd := v }
  | 0x8 => { a with x := putLow a.x v }
  | 0xA => { a with x := putHigh a.x v }
  | 0xC => { a with y := putLow a.y v }
  | 0xE => { a with y := putHigh a.y v }
  | _ => a

/-- A raw 16-bit word stored at a byte offset of `REG`. An offset that R110 does not list holds no field, and a store
there has no effect. -/
def putRegHalf (off : Nat) (v : Half) (r : Reg) : Reg :=
  if off = 0x00 then { r with dispcnt := rawDispcnt v }
  else if 0x08 ≤ off ∧ off < 0x10 ∧ off % 2 = 0 then
    onBgCnt (BitVec.ofNat 2 ((off - 0x08) / 2)) (fun _ => rawBgCnt v) r
  else if 0x10 ≤ off ∧ off < 0x20 ∧ off % 4 = 0 then
    { r with bgHofs := Tab.set r.bgHofs (BitVec.ofNat 2 ((off - 0x10) / 4)) (v.extractLsb' 0 9) }
  else if 0x10 ≤ off ∧ off < 0x20 ∧ off % 4 = 2 then
    { r with bgVofs := Tab.set r.bgVofs (BitVec.ofNat 2 ((off - 0x10) / 4)) (v.extractLsb' 0 9) }
  else if 0x20 ≤ off ∧ off < 0x40 then
    onAff (BitVec.ofNat 1 ((off - 0x20) / 16)) (putAffHalf ((off - 0x20) % 16) v) r
  else if off = 0x40 then onWin 0 (fun b => { b with right := v.extractLsb' 0 8, left := v.extractLsb' 8 8 }) r
  else if off = 0x42 then onWin 1 (fun b => { b with right := v.extractLsb' 0 8, left := v.extractLsb' 8 8 }) r
  else if off = 0x44 then onWin 0 (fun b => { b with bottom := v.extractLsb' 0 8, top := v.extractLsb' 8 8 }) r
  else if off = 0x46 then onWin 1 (fun b => { b with bottom := v.extractLsb' 0 8, top := v.extractLsb' 8 8 }) r
  else if off = 0x48 then
    onWinin 1 (fun _ => rawMask (v.extractLsb' 8 6)) (onWinin 0 (fun _ => rawMask (v.extractLsb' 0 6)) r)
  else if off = 0x4A then
    { r with winout := rawMask (v.extractLsb' 0 6), winobj := rawMask (v.extractLsb' 8 6) }
  else if off = 0x4C then
    { r with
      mosaic := { bgH := v.extractLsb' 0 4, bgV := v.extractLsb' 4 4, objH := v.extractLsb' 8 4,
                  objV := v.extractLsb' 12 4 } }
  else if off = 0x50 then
    { r with
      bldcnt := { mode := v.extractLsb' 6 2, targetA := v.extractLsb' 0 6, targetB := v.extractLsb' 8 6 } }
  else if off = 0x52 then { r with eva := v.extractLsb' 0 5, evb := v.extractLsb' 8 5 }
  else if off = 0x54 then { r with evy := v.extractLsb' 0 5 }
  else r

/-- A raw 32-bit word stored at a byte offset of `REG`: its two 16-bit words, little-endian (R110). -/
def putRegWord (off : Nat) (v : Word) (r : Reg) : Reg :=
  putRegHalf (off + 2) (v.extractLsb' 16 16) (putRegHalf off (v.extractLsb' 0 16) r)

/-! ### `OAM` and `OBJAFF` (R37, R38, R111) -/

/-- The store of a named field of a sprite descriptor. -/
def putOamField : OamField → ObjAttr → ObjAttr
  | .y v => fun a => { a with y := v }
  | .x v => fun a => { a with x := v }
  | .affine v => fun a => { a with affine := v }
  | .doubleSize v => fun a => { a with doubleSize := v }
  | .gfxMode v => fun a => { a with gfxMode := v }
  | .mosaic v => fun a => { a with mosaic := v }
  | .color8 v => fun a => { a with color8 := v }
  | .shape v => fun a => { a with shape := v }
  | .size v => fun a => { a with size := v }
  | .hflip v => fun a => { a with hflip := v }
  | .vflip v => fun a => { a with vflip := v }
  | .affGroup v => fun a => { a with affGroup := v }
  | .tile v => fun a => { a with tile := v }
  | .priority v => fun a => { a with priority := v }
  | .palette v => fun a => { a with palette := v }

/-- The store of a named field of a sprite affine group. -/
def putObjAffField : ObjAffField → ObjAffine → ObjAffine
  | .pa v => fun g => { g with pa := v }
  | .pb v => fun g => { g with pb := v }
  | .pc v => fun g => { g with pc := v }
  | .pd v => fun g => { g with pd := v }

/-- Attribute 0 (R111). -/
def putAttr0 (v : Half) (a : ObjAttr) : ObjAttr :=
  { a with
    y := v.extractLsb' 0 8, affine := v.getLsbD 8, doubleSize := v.getLsbD 9, gfxMode := v.extractLsb' 10 2,
    mosaic := v.getLsbD 12, color8 := v.getLsbD 13, shape := v.extractLsb' 14 2 }

/-- Attribute 1: `aff_group`, `hflip` and `vflip` "are three separate fields, each taken from its bits" (R111). -/
def putAttr1 (v : Half) (a : ObjAttr) : ObjAttr :=
  { a with
    x := v.extractLsb' 0 9, affGroup := v.extractLsb' 9 5, hflip := v.getLsbD 12, vflip := v.getLsbD 13,
    size := v.extractLsb' 14 2 }

/-- Attribute 2 (R111). -/
def putAttr2 (v : Half) (a : ObjAttr) : ObjAttr :=
  { a with tile := v.extractLsb' 0 10, priority := v.extractLsb' 10 2, palette := v.extractLsb' 12 4 }

/-- The parameter word of slot `4g + j` (R111). -/
def putParameter (j : Nat) (v : Half) (g : ObjAffine) : ObjAffine :=
  match j with
  | 0 => { g with pa := v }
  | 1 => { g with pb := v }
  | 2 => { g with pc := v }
  | _ => { g with pd := v }

/-- A raw 16-bit word stored at an even address of the 0x400 bytes of `OAM` and `OBJAFF`: word `addr % 8` of slot
`addr / 8` (R111). -/
def putOamHalf (addr : Nat) (v : Half) (h : HostMem) : HostMem :=
  let slot := addr / 8
  let onSlot (f : ObjAttr → ObjAttr) : HostMem := { h with oam := Tab.update h.oam (BitVec.ofNat 7 slot) f }
  match addr % 8 with
  | 0 => onSlot (putAttr0 v)
  | 2 => onSlot (putAttr1 v)
  | 4 => onSlot (putAttr2 v)
  | 6 => { h with objAff := Tab.update h.objAff (BitVec.ofNat 5 (slot / 4)) (putParameter (slot % 4) v) }
  | _ => h

/-! ### The store port -/

/-- The effect of a store that is well formed (R84, R100). -/
def putStore : HostStore → HostMem → HostMem
  | .regField f => fun h => { h with reg := putRegField f h.reg }
  | .regHalf off v => fun h => { h with reg := putRegHalf off v h.reg }
  | .regWord off v => fun h => { h with reg := putRegWord off v h.reg }
  | .oamField s f => fun h => { h with oam := Tab.update h.oam s (putOamField f) }
  | .oamHalf addr v => putOamHalf addr v
  | .objAffField g f => fun h => { h with objAff := Tab.update h.objAff g (putObjAffField f) }
  | .vramByte a v => fun h => { h with vram := Memory.write h.vram a v }
  | .vramHalf a v => fun h => { h with vram := Memory.writeHalf h.vram a v }
  | .palByte a v => fun h => { h with pal := Memory.write h.pal a v }
  | .palHalf a v => fun h => { h with pal := Memory.writeHalf h.pal a v }

/-- The fault of a malformed transaction. -/
def faultOf : Malformed → Fault
  | .outsideSpace => .storeOutsideSpace
  | .misaligned => .misalignedStore
  | .outsideOut => .readOutsideOut

/-- A transaction on the store port: host-owned state changes and nothing else; a store that names no place of its space
stops the machine. -/
def hostStore (st : HostStore) (s : State) : Outcome :=
  match st.malformed with
  | some m => .fault (faultOf m)
  | none => .next { s with host := putStore st s.host }

/-! ### The dirty-set port -/

/-- "takes a 21-bit mask and ORs it into `DIRTY`" (R109). -/
def hostDirtySet (m : DirtySet) (s : State) : State := { s with dirty := s.dirty ||| m }

/-- The dirty bits that a field of `REG` asks of the host (R50). -/
def regFieldDirty : RegField → DirtySet
  | .mode _ | .page _ | .obj1d _ | .forcedBlank _ | .bgEnable _ _ | .winEnable _ _ | .objwinEnable _ => ioDispcnt
  | .bgPriority _ _ | .bgCharBase _ _ | .bgMosaic _ _ | .bgColor8 _ _ | .bgScreenBase _ _ | .bgWrap _ _
  | .bgSize _ _ => 0
  | .bgHofs n _ | .bgVofs n _ => ioBgOffset n.toNat
  | .affPa k _ | .affPb k _ | .affPc k _ | .affPd k _ | .affX k _ | .affY k _ => compAffine k.toNat
  | .winLeft _ _ | .winRight _ _ | .winTop _ _ | .winBottom _ _ => compWindow
  | .wininBg _ _ _ | .wininObj _ _ | .wininBlend _ _ | .winobjBg _ _ | .winobjObj _ | .winobjBlend _
  | .winoutBg _ _ | .winoutObj _ | .winoutBlend _ => compWindow
  | .mosaicBgH _ | .mosaicBgV _ | .mosaicObjH _ | .mosaicObjV _ => 0
  | .bldMode _ | .targetA _ _ | .targetB _ _ | .eva _ | .evb _ | .evy _ => ioBlend

/-- The dirty bits that a raw word of `REG` asks of the host (R50, at the offsets of R110). -/
def regHalfDirty (off : Nat) : DirtySet :=
  if off = 0x00 then ioDispcnt
  else if 0x10 ≤ off ∧ off < 0x20 ∧ off % 2 = 0 then ioBgOffset ((off - 0x10) / 4)
  else if 0x20 ≤ off ∧ off < 0x40 ∧ off % 2 = 0 then compAffine ((off - 0x20) / 16)
  else if 0x40 ≤ off ∧ off < 0x4C ∧ off % 2 = 0 then compWindow
  else if off = 0x50 ∨ off = 0x52 ∨ off = 0x54 then ioBlend
  else 0

/-- The dirty bits of a byte of `VRAM` (R50). -/
def vramByteDirty (a : Nat) : DirtySet :=
  dirtyIf (decide (a < 0x10000)) (vramBgBlock (a / 0x4000)) ||| dirtyIf (decide (a < 0x12C00)) vramBitmap3
    ||| dirtyIf (decide (a < 0x9600)) (vramBitmap4 0) ||| dirtyIf (decide (0xA000 ≤ a ∧ a < 0xA000 + 0x9600)) (vramBitmap4 1)
    ||| dirtyIf (decide (a < 0xA000)) (vramBitmap5 0) ||| dirtyIf (decide (0xA000 ≤ a ∧ a < 0xA000 + 0xA000)) (vramBitmap5 1)
    ||| dirtyIf (decide (0x10000 ≤ a)) vramObj

/-- The dirty bits of a byte of `PAL` (R50). -/
def palByteDirty (a : Nat) : DirtySet := if a < 0x200 then palBg else palObj

/-- The mask that the host owes the dirty-set port for a store: the table of R50 (a host duty, R318). Stores to `OAM`
and `OBJAFF` have no dirty bit. -/
def storeDirty : HostStore → DirtySet
  | .regField f => regFieldDirty f
  | .regHalf off _ => regHalfDirty off
  | .regWord off _ => regHalfDirty off ||| regHalfDirty (off + 2)
  | .oamField _ _ | .oamHalf _ _ | .objAffField _ _ => 0
  | .vramByte a _ => vramByteDirty a
  | .vramHalf a _ => vramByteDirty a ||| vramByteDirty (a + 1)
  | .palByte a _ => palByteDirty a
  | .palHalf a _ => palByteDirty a ||| palByteDirty (a + 1)

/-! ### The result read port (R108) -/

/-- `QRES`: `valid`[7], `slot`[6:0] (R22). -/
def packQRes (q : QRes) : BitVec 8 := BitVec.ofBool q.valid ++ q.slot

/-- `ORES`: `color`[14:0], `prio`[16:15], `semi`[17], `objwin`[18], `found`[19] (R22). -/
def packORes (r : ORes) : BitVec 20 :=
  BitVec.ofBool r.found ++ BitVec.ofBool r.objwin ++ BitVec.ofBool r.semi ++ r.prio ++ r.color

/-- `BRES`: `color`[14:0], `valid`[15] (R22). -/
def packBRes (r : BRes) : BitVec 16 := BitVec.ofBool r.valid ++ r.color

/-- `WRES`: `bg`[3:0], `obj`[4], `blend`[5] (R22). -/
def packMask (m : LayerMask) : BitVec 6 := BitVec.ofBool m.blend ++ BitVec.ofBool m.obj ++ m.bg

/-- `BU.slot[i]`: `color`[14:0], `prio`[17:15], `tgt_a`[18], `tgt_b`[19], `blended_obj`[20], `layer`[23:21] (R46). -/
def packLayer (l : Layer) : BitVec 24 :=
  l.layer ++ BitVec.ofBool l.blendedObj ++ BitVec.ofBool l.tgtB ++ BitVec.ofBool l.tgtA ++ l.prio ++ l.color

/-- `SNAP`: `tag`[2:0], `en[n]`[3+n], `mos[n]`[7+n], `gran_h`[14:11], `gran_v`[18:15], `page`[19] (R108). -/
def packSnap (n : Snap) : BitVec 20 := BitVec.ofBool n.page ++ n.granV ++ n.granH ++ n.mos ++ n.en ++ n.tag

/-- Result register `r`; "unused high bits read 0", and "a read of a number not listed returns 0" (R108). -/
def resultRegister (s : State) (r : Nat) : Word :=
  match r with
  | 0 => s.fault.setWidth 32
  | 1 => s.faultCmd
  | 2 => (packQRes s.qres).setWidth 32
  | 3 => (packORes s.ores).setWidth 32
  | 4 => (packBRes s.bres).setWidth 32
  | 5 => (packMask s.wres).setWidth 32
  | 6 => s.cres.setWidth 32
  | 7 => (BitVec.ofBool s.flush).setWidth 32
  | 8 => s.qset.extractLsb' 0 32
  | 9 => s.qset.extractLsb' 32 32
  | 10 => s.qset.extractLsb' 64 32
  | 11 => s.qset.extractLsb' 96 32
  | 12 => (Tab.get s.acc 0#1).x
  | 13 => (Tab.get s.acc 0#1).y
  | 14 => (Tab.get s.acc 1#1).x
  | 15 => (Tab.get s.acc 1#1).y
  | 16 => BitVec.ofNat 32 (BuState.rank s.bu.state)
  | 17 => (packLayer s.bu.slot0).setWidth 32
  | 18 => (packLayer s.bu.slot1).setWidth 32
  | 19 => s.dirty.setWidth 32
  | 20 => (packSnap s.snap).setWidth 32
  | _ => 0

/-- A transaction on the result read port: the value goes to the host; nothing of the block changes (R108). -/
def hostReadResult (r : Nat) (s : State) : State := { s with readData := resultRegister s r }

/-- The cell `OUT[row][col]` (R79). -/
def outCell (s : State) (row col : Nat) : Half := Memory.read s.out (outIndex row col)

/-- A read of a cell of `OUT` (R79, R100); a row or column that it does not have stops the machine. -/
def hostReadOut (row col : Nat) (s : State) : Outcome :=
  if row < cfg.screenH ∧ col < cfg.screenW then .next { s with readData := (outCell s row col).setWidth 32 }
  else .fault .readOutsideOut

/-! ### An illegal command word -/

/-- `BAD_COMMAND`: "An illegal word raises `BAD_COMMAND` and changes no other state" (R104, R290). -/
def badCommand (w : Word) (s : State) : State := raise badCommandBit w s

end Sys2Proof.Machine
end

