-- ==== Sys2Proof/Machine/Dispatch.lean ====
section
/-! DEFINITION. One arm per command (spec/30_encoding.md rule R101). -/

namespace Sys2Proof.Machine

def exec (i : Instr) (s : State) : Host.Outcome State Fault Refusal :=
  match i with
  | .markDrawn slot => Sys2Proof.Machine.execMarkDrawn slot s
  | .markHidden slot => Sys2Proof.Machine.execMarkHidden slot s
  | .query x y => Sys2Proof.Machine.execQuery x y s
  | .qpop => Sys2Proof.Machine.execQpop s
  | .smpObj x y => Sys2Proof.Machine.execSmpObj x y s
  | .smpTile bg x y => Sys2Proof.Machine.execSmpTile bg x y s
  | .smpAff k => Sys2Proof.Machine.execSmpAff k s
  | .smpBmp3 x y => Sys2Proof.Machine.execSmpBmp3 x y s
  | .smpBmp4 x y => Sys2Proof.Machine.execSmpBmp4 x y s
  | .smpBmp5 x y => Sys2Proof.Machine.execSmpBmp5 x y s
  | .winEval x y ow => Sys2Proof.Machine.execWinEval x y ow s
  | .bldReset => Sys2Proof.Machine.execBldReset s
  | .bldObj color prio semi => Sys2Proof.Machine.execBldObj color prio semi s
  | .bldBg0 color prio => Sys2Proof.Machine.execBldBg0 color prio s
  | .bldBg1 color prio => Sys2Proof.Machine.execBldBg1 color prio s
  | .bldBg2 color prio => Sys2Proof.Machine.execBldBg2 color prio s
  | .bldBg3 color prio => Sys2Proof.Machine.execBldBg3 color prio s
  | .bldBackdrop color => Sys2Proof.Machine.execBldBackdrop color s
  | .bldComposite blendEn => Sys2Proof.Machine.execBldComposite blendEn s
  | .accSeed => Sys2Proof.Machine.execAccSeed s
  | .accStep => Sys2Proof.Machine.execAccStep s
  | .renderRow y => Sys2Proof.Machine.execRenderRow y s
  | .startFrame => Sys2Proof.Machine.execStartFrame s
  | .shouldFlush => Sys2Proof.Machine.execShouldFlush s

end Sys2Proof.Machine
end

