-- ==== Sys2Proof/Machine/CommandPort.lean ====
section
/-! DEFINITION. What a step does with the transaction it takes: the command port decodes and executes to completion
(spec/30_encoding.md rule R100); the other ports as Machine/HostPort.lean says; the reset input puts the block in the
state of R60. -/

namespace Sys2Proof.Machine

/-- The command port: a word of the table runs, any other raises `BAD_COMMAND` (R100, R104). -/
def runCommand (w : Word) (s : State) : Outcome :=
  match decode w with
  | .ok i => exec i s
  | .error _ => .next (badCommand w s)

/-- One transaction, in the state from which it has been taken (R81: "commands take effect in issue order, each
completely before the next begins"). -/
def runTxn (t : HostTxn) (s : State) : Outcome :=
  match t with
  | .command w => runCommand w s
  | .store st => hostStore st s
  | .dirtySet m => .next (hostDirtySet m s)
  | .readResult r => .next (hostReadResult r s)
  | .readOut row col => hostReadOut row col s
  | .reset m => .next (State.launch m s.inbox)

/-- Put a command word before every other transaction still to come. -/
def issueFirst (w : Word) (s : State) : State := { s with inbox := .command w :: s.inbox }

end Sys2Proof.Machine
end

