-- ==== Sys2Proof/Machine/Step.lean ====
section
/-! DEFINITION. One step: the next transaction of the host is taken and carried out. The block has no program counter
and fetches nothing (spec/10_state.md rule R25); with no transaction to come it waits ("after reset the block waits for
the host's first command word", spec/70_reset_and_hazards.md rule R310). -/

namespace Sys2Proof.Machine

/-- One step. -/
def step (s : State) : Host.Outcome State Fault Refusal :=
  match s.inbox with
  | [] => .next s
  | t :: rest => runTxn t { s with inbox := rest }

/-- `s` with a command word issued before everything else the host still has to issue: commands are not fetched from a
memory but arrive on the command port (R25, R85), so this is how the very next step runs that word
(notes/assumptions/1.md). -/
def State.withFetchWord (s : State) (nbits w : Nat) : State := issueFirst (tableWord nbits w) s

end Sys2Proof.Machine
end

