-- ==== Sys2Proof/Machine/Assembly.lean ====
section
/-! DEFINITION. What the spec builds from the commands: the assembler (spec/30_encoding.md rule R106), the
pseudo-commands (R107), and the host's own way through a row, command by command (spec/46_row_compositor.md rule
R277). -/

namespace Sys2Proof.Machine

/-! ### Assembler lines (R106) -/

/-- A `k`-bit operand. -/
def operand (k v : Nat) : Option (BitVec k) := if v < 2 ^ k then some (BitVec.ofNat k v) else none

/-- A one-bit operand. -/
def flagOperand (v : Nat) : Option Bool := if v = 0 then some false else if v = 1 then some true else none

/-- A command with operands `x, y`. -/
def xyCommand (f : BitVec 8 → BitVec 8 → Instr) (x y : Nat) : Option Instr :=
  (operand 8 x).bind fun x => (operand 8 y).map fun y => f x y

/-- A command with operands `color, prio`. -/
def layerCommand (f : Colour → BitVec 3 → Instr) (color prio : Nat) : Option Instr :=
  (operand 15 color).bind fun c => (operand 3 prio).map fun p => f c p

/-- The command that a mnemonic and its operands, in the order of R106, stand for; none where a mnemonic is unknown, an
operand is missing or one too many, or a number does not fit its field. `SMP_AFF` is written with the background, 2 or
3. -/
def assemble (mnemonic : String) (ops : List Nat) : Option Instr :=
  match mnemonic, ops with
  | "MARK_DRAWN", [slot] => (operand 7 slot).map .markDrawn
  | "MARK_HIDDEN", [slot] => (operand 7 slot).map .markHidden
  | "QUERY", [x, y] => xyCommand .query x y
  | "QPOP", [] => some .qpop
  | "SMP_OBJ", [x, y] => xyCommand .smpObj x y
  | "SMP_TILE", [bg, x, y] => (operand 2 bg).bind fun n => xyCommand (.smpTile n) x y
  | "SMP_AFF", [bg] => if 2 ≤ bg then (operand 1 (bg - 2)).map .smpAff else none
  | "SMP_BMP3", [x, y] => xyCommand .smpBmp3 x y
  | "SMP_BMP4", [x, y] => xyCommand .smpBmp4 x y
  | "SMP_BMP5", [x, y] => xyCommand .smpBmp5 x y
  | "WIN_EVAL", [x, y, ow] => (flagOperand ow).bind fun o => xyCommand (fun x y => .winEval x y o) x y
  | "BLD_RESET", [] => some .bldReset
  | "BLD_OBJ", [color, prio, semi] =>
    (flagOperand semi).bind fun m => layerCommand (fun c p => .bldObj c p m) color prio
  | "BLD_BG0", [color, prio] => layerCommand .bldBg0 color prio
  | "BLD_BG1", [color, prio] => layerCommand .bldBg1 color prio
  | "BLD_BG2", [color, prio] => layerCommand .bldBg2 color prio
  | "BLD_BG3", [color, prio] => layerCommand .bldBg3 color prio
  | "BLD_BACKDROP", [color] => (operand 15 color).map .bldBackdrop
  | "BLD_COMPOSITE", [en] => (flagOperand en).map .bldComposite
  | "ACC_SEED", [] => some .accSeed
  | "ACC_STEP", [] => some .accStep
  | "RENDER_ROW", [y] => (operand 8 y).map .renderRow
  | "START_FRAME", [] => some .startFrame
  | "SHOULD_FLUSH", [] => some .shouldFlush
  | _, _ => none

/-! ### Sequences of commands -/

/-- Go on only from a next state. -/
def bindNext (o : Outcome) (f : State → Outcome) : Outcome :=
  match o with
  | .next s => f s
  | .fault r => .fault r
  | .refused r => .refused r

/-- Commands one after another. -/
def execAll : List Instr → State → Outcome
  | [], s => .next s
  | i :: rest, s => bindNext (exec i s) (execAll rest)

/-! ### Pseudo-commands (R107) -/

/-- `REMARK slot`. -/
def remark (slot : SlotNo) : List Instr := [.markHidden slot, .markDrawn slot]

/-- `RENDER_FRAME`: every row, 0 to 159. -/
def renderFrame : List Instr := (List.range cfg.screenH).map fun y => .renderRow (BitVec.ofNat 8 y)

/-- `QPOP` at most `n` times, until `QRES.valid = 0`: the state reached, and the slots popped in order. -/
def drain : Nat → State → State × List SlotNo
  | 0, s => (s, [])
  | n + 1, s =>
    let t := qpop s
    if t.qres.valid then
      let r := drain n t
      (r.1, t.qres.slot :: r.2)
    else (t, [])

/-- `QDRAIN`: "`QPOP` repeated until `QRES.valid = 0` (at most 129 times)". -/
def qdrain (s : State) : State × List SlotNo := drain 129 s

/-! ### Source lines (R106)

"Numbers are decimal or `0x` hexadecimal. One command per line; `;` starts a comment." Spaces and tabs may stand around
a mnemonic and its operands (DESIGN CHOICE, notes/assumptions/16.md). -/

/-- A space or a tab. -/
def isSpace (c : Char) : Bool := c == ' ' || c == '\t'

/-- Text without the spaces around it. -/
def trimSpaces (l : List Char) : List Char := ((l.dropWhile isSpace).reverse.dropWhile isSpace).reverse

/-- The value of a hexadecimal digit. -/
def digitValue (c : Char) : Option Nat :=
  if '0' ≤ c ∧ c ≤ '9' then some (c.toNat - 48)
  else if 'a' ≤ c ∧ c ≤ 'f' then some (c.toNat - 87)
  else if 'A' ≤ c ∧ c ≤ 'F' then some (c.toNat - 55)
  else none

/-- The number that digits of a base go on to spell after `acc`. -/
def digitsFrom (base : Nat) : Nat → List Char → Option Nat
  | acc, [] => some acc
  | acc, c :: rest =>
    (digitValue c).bind fun d => if d < base then digitsFrom base (acc * base + d) rest else none

/-- A number of a source line. -/
def parseNumber : List Char → Option Nat
  | [] => none
  | '0' :: 'x' :: ds => if ds = [] then none else digitsFrom 16 0 ds
  | ds => digitsFrom 10 0 ds

/-- The pieces of a text between its commas. -/
def splitCommas : List Char → List (List Char)
  | [] => [[]]
  | c :: rest =>
    match splitCommas rest with
    | [] => [[c]]
    | piece :: pieces => if c = ',' then [] :: piece :: pieces else (c :: piece) :: pieces

/-- The operands of a source line; none of an empty text. -/
def parseOperands (l : List Char) : Option (List Nat) :=
  if l = [] then some [] else (splitCommas l).mapM fun piece => parseNumber (trimSpaces piece)

/-- What a source line asks of the block. -/
inductive LineItem where
  | command (i : Instr)
  /-- `QDRAIN`, whose number of commands depends on the results (R107) -/
  | drain
deriving DecidableEq, Repr

/-- What a mnemonic and its operands ask of the block, the pseudo-commands of R107 expanded. -/
def lineItems (mnemonic : String) (ops : List Nat) : Option (List LineItem) :=
  match mnemonic, ops with
  | "REMARK", [slot] => (operand 7 slot).map fun n => (remark n).map .command
  | "RENDER_FRAME", [] => some (renderFrame.map .command)
  | "QDRAIN", [] => some [.drain]
  | m, ops => (assemble m ops).map fun i => [.command i]

/-- A source line; none where it is not one of R106 or R107. A line with nothing before its comment asks nothing. -/
def assembleLine (line : String) : Option (List LineItem) :=
  let text := trimSpaces (line.toList.takeWhile (· ≠ ';'))
  if text = [] then some []
  else
    (parseOperands (trimSpaces (text.dropWhile fun c => !isSpace c))).bind
      (lineItems (String.ofList (text.takeWhile fun c => !isSpace c)))

/-- A source text, line by line. -/
def assembleProgram (lines : List String) : Option (List LineItem) := (lines.mapM assembleLine).map List.flatten

/-- Run what source lines ask for. -/
def runItems : List LineItem → State → Outcome
  | [], s => .next s
  | .command i :: rest, s => bindNext (exec i s) (runItems rest)
  | .drain :: rest, s => runItems rest (qdrain s).1

/-! ### A row, command by command (R277) -/

/-- The commands of background `n` at a pixel, the host reading `WRES` and `BRES` to form them. -/
def hostBg (n : BitVec 2) (sample : Option Instr) (add : Colour → BitVec 3 → Instr) (s : State) :
    Outcome :=
  match sample with
  | none => .next s
  | some i =>
    if bitOf s.host.reg.dispcnt.bgEnable n && bitOf s.wres.bg n then
      bindNext (exec i s) fun t =>
        if t.bres.valid then exec (add t.bres.color ((Tab.get t.host.reg.bgcnt n).priority.setWidth 3)) t else .next t
    else .next s

/-- The sampler command of background `n` in a video mode (R272, R275). -/
def sampleCommand (mode : BitVec 3) (n : BitVec 2) (x y : BitVec 8) : Option Instr :=
  match bgKind mode n with
  | .none => none
  | .tile => some (.smpTile n x y)
  | .affine k => some (.smpAff k)
  | .bitmap3 => some (.smpBmp3 x y)
  | .bitmap4 => some (.smpBmp4 x y)
  | .bitmap5 => some (.smpBmp5 x y)

/-- The commands `Pixel(x, y)` lists, the result read between them, and `CRES` copied to `OUT[y][x]`. -/
def hostPixel (y x : BitVec 8) (s : State) : Outcome :=
  let bg (n : BitVec 2) (add : Colour → BitVec 3 → Instr) (t : State) : Outcome :=
    hostBg n (sampleCommand s.host.reg.dispcnt.mode n x y) add t
  bindNext (exec (.smpObj x y) s) fun s =>
  bindNext (exec (.winEval x y s.ores.objwin) s) fun s =>
  bindNext (exec .bldReset s) fun s =>
  bindNext
    (if s.ores.found && s.wres.obj then exec (.bldObj s.ores.color (s.ores.prio.setWidth 3) s.ores.semi) s
     else .next s) fun s =>
  bindNext (bg 0 .bldBg0 s) fun s =>
  bindNext (bg 1 .bldBg1 s) fun s =>
  bindNext (bg 2 .bldBg2 s) fun s =>
  bindNext (bg 3 .bldBg3 s) fun s =>
  bindNext (exec (.bldBackdrop (backdropColor s.host)) s) fun s =>
  bindNext (exec (.bldComposite s.wres.blend) s) fun s =>
  exec .accStep (writeOut y.toNat x.toNat s.cres s)

/-- The pixels of a row at the given columns, in order. -/
def hostColumns (y : BitVec 8) : List (BitVec 8) → State → Outcome
  | [], s => .next s
  | x :: rest, s => bindNext (hostPixel y x s) (hostColumns y rest)

/-- `ACC_SEED`, then every column from 0 to 239. -/
def hostRow (y : BitVec 8) (s : State) : Outcome := bindNext (exec .accSeed s) (hostColumns y columns)

end Sys2Proof.Machine
end

