-- ==== Sys2Proof/Safety.lean ====
section
/-! DEFINITION. What holds of every state the machine can reach, and what a safe run is, in the terms the statements use.
Each part of `StateInv` is an invariant the spec states or its field tables give. -/

namespace Sys2Proof.Machine

/-- The invariant of the visibility index (spec/10_state.md rule R41): "bit s of `COLSET[x]` is 1 iff
`OBJC[s].tex_w != 0` and `OBJC[s].clip_x0 <= x < OBJC[s].clip_x1`", and the same of the rows. -/
structure VisibilityInv (s : State) : Prop where
  cols : ∀ (slot : SlotNo) (x : Nat) (h : x < 240), bitOf s.colset[x] slot = true ↔
    (Tab.get s.objc slot).texW ≠ 0 ∧ (Tab.get s.objc slot).clipX0 ≤ x ∧ x < (Tab.get s.objc slot).clipX1
  rows : ∀ (slot : SlotNo) (y : Nat) (h : y < 160), bitOf s.rowset[y] slot = true ↔
    (Tab.get s.objc slot).texW ≠ 0 ∧ (Tab.get s.objc slot).clipY0 ≤ y ∧ y < (Tab.get s.objc slot).clipY1

/-- The ranges of the fields of a cache entry (R40), and how they hang together (R142, R144). -/
structure CacheOk (c : ObjCache) : Prop where
  texW : c.texW = 0 ∨ c.texW = 8 ∨ c.texW = 16 ∨ c.texW = 32 ∨ c.texW = 64
  texH : c.texH = 0 ∨ c.texH = 8 ∨ c.texH = 16 ∨ c.texH = 32 ∨ c.texH = 64
  hidden : c.texW = 0 ↔ c.texH = 0
  rectX : -256 ≤ c.rectX ∧ c.rectX ≤ 255
  rectY : -128 ≤ c.rectY ∧ c.rectY ≤ 255
  rectSize : c.rectW ≤ 128 ∧ c.rectH ≤ 128
  centre : c.cx = c.rectX + (c.rectW / 2 : Nat) ∧ c.cy = c.rectY + (c.rectH / 2 : Nat)
  clipX : c.clipX0 = clampTo 240 c.rectX ∧ c.clipX1 = clampTo 240 (c.rectX + c.rectW)
  clipY : c.clipY0 = clampTo 160 c.rectY ∧ c.clipY1 = clampTo 160 (c.rectY + c.rectH)

/-- Every cache entry is in range (R40). -/
def CacheInv (s : State) : Prop := ∀ slot : SlotNo, CacheOk (Tab.get s.objc slot)

/-- A slot of the blend unit after adds up to the state of rank `r`: unset, a background `n` with `2 + n ≤ r`, the
object, or the backdrop (R45, R46, R221). -/
def LayerOk (r : Nat) (l : Layer) : Prop :=
  l = Layer.unset
    ∨ (l.layer.toNat ≤ 3 ∧ l.prio.toNat ≤ 3 ∧ l.blendedObj = false ∧ 2 + l.layer.toNat ≤ r)
    ∨ (l.layer = 4 ∧ l.prio.toNat ≤ 3 ∧ 1 ≤ r)
    ∨ (l.layer = 5 ∧ l.prio = 4 ∧ l.blendedObj = false ∧ 6 ≤ r)

/-- The invariant of the blend unit: its slots hold layers already added, best first, slot 0 set as soon as a layer was
added, and no layer twice (R220, R224, R229). -/
structure BlendInv (s : State) : Prop where
  slot0 : LayerOk (BuState.rank s.bu.state) s.bu.slot0
  slot1 : LayerOk (BuState.rank s.bu.state) s.bu.slot1
  ranked : s.bu.slot0.prio ≤ s.bu.slot1.prio
  filled : 1 ≤ BuState.rank s.bu.state ↔ s.bu.slot0.prio ≠ 7
  distinct : s.bu.slot0.layer = s.bu.slot1.layer → s.bu.slot1 = Layer.unset

/-- "A field that the tag's mode does not use is held at 0" (R44), and the tag is a mode that is not reserved. -/
structure SnapInv (s : State) : Prop where
  tag : s.snap.tag.toNat ≤ 5
  en : s.snap.en &&& ~~~tracked s.snap.tag = 0
  mos : s.snap.mos &&& ~~~tracked s.snap.tag = 0
  tiled : 2 < s.snap.tag.toNat → s.snap.mos = 0 ∧ s.snap.granH = 0 ∧ s.snap.granV = 0
  page : s.snap.tag ≠ 4 → s.snap.tag ≠ 5 → s.snap.page = false

/-- The memories are in canonical form and inside their spaces (R70, R71, R79). -/
structure MemoryInv (s : State) : Prop where
  vram : Memory.wfBelow cfg.vramSize s.host.vram
  pal : Memory.wfBelow palSize s.host.pal
  out : Memory.wfBelow outCells s.out

/-- The result registers read as R22 and R148, R160, R198, R230 say: a result that is not valid is all 0, and bit 15 of
`CRES` is 0. -/
structure ResultInv (s : State) : Prop where
  qres : s.qres.valid = false → s.qres.slot = 0
  ores : s.ores.found = false → s.ores.color = 0 ∧ s.ores.prio = 0 ∧ s.ores.semi = false
  bres : s.bres.valid = false → s.bres.color = 0
  cres : s.cres.getLsbD 15 = false

/-- `FAULT_CMD` is 0 until the first fault (R60, R293). -/
def FaultInv (s : State) : Prop := s.fault = 0 → s.faultCmd = 0

/-- The invariant of the machine. -/
structure StateInv (s : State) : Prop where
  visibility : VisibilityInv s
  cache : CacheInv s
  blend : BlendInv s
  snap : SnapInv s
  memory : MemoryInv s
  results : ResultInv s
  fault : FaultInv s

/-- A safe run so far: "if `FAULT = 0` after a command sequence, no precondition of §7 was violated in it"
(spec/60_exceptions.md rule R299). -/
abbrev Safe (s : State) : Prop := s.fault = 0

/-- The commands that can meet a fault condition (R290 to R296). -/
def canFault : Instr → Bool
  | .bldObj _ _ _ | .bldBg0 _ _ | .bldBg1 _ _ | .bldBg2 _ _ | .bldBg3 _ _ | .bldBackdrop _ | .bldComposite _
  | .renderRow _ | .startFrame | .shouldFlush => true
  | .markDrawn _ | .markHidden _ | .query _ _ | .qpop | .smpObj _ _ | .smpTile _ _ _ | .smpAff _ | .smpBmp3 _ _
  | .smpBmp4 _ _ | .smpBmp5 _ _ | .winEval _ _ _ | .bldReset | .accSeed | .accStep => false

/-! ### The spec's own tables and terms

Each is written from the rule it cites, apart from the definitions the meanings use, so that a statement holds the two
against each other. -/

/-- The states in which a blend command is legal, as rules R220 and R225 to R230 of spec/44_priority_blend_engine.md name
them; every other command is always legal. -/
def LegalIn (st : BuState) : Instr → Prop
  | .bldObj _ _ _ => st = .reset
  | .bldBg0 _ _ => st = .reset ∨ st = .objectAdded
  | .bldBg1 _ _ => st = .reset ∨ st = .objectAdded ∨ st = .bg0Added
  | .bldBg2 _ _ => st = .reset ∨ st = .objectAdded ∨ st = .bg0Added ∨ st = .bg1Added
  | .bldBg3 _ _ => st = .reset ∨ st = .objectAdded ∨ st = .bg0Added ∨ st = .bg1Added ∨ st = .bg2Added
  | .bldBackdrop _ => st ≠ .backdropAdded ∧ st ≠ .composited
  | .bldComposite _ => st = .backdropAdded
  | .bldReset | .markDrawn _ | .markHidden _ | .query _ _ | .qpop | .smpObj _ _ | .smpTile _ _ _ | .smpAff _
  | .smpBmp3 _ _ | .smpBmp4 _ _ | .smpBmp5 _ _ | .winEval _ _ _ | .accSeed | .accStep | .renderRow _ | .startFrame
  | .shouldFlush => True

/-- The `prio` operand of a command, if it has one (R102). -/
def prioOperand : Instr → Option (BitVec 3)
  | .bldObj _ prio _ => some prio
  | .bldBg0 _ prio | .bldBg1 _ prio | .bldBg2 _ prio | .bldBg3 _ prio => some prio
  | .bldReset | .bldBackdrop _ | .bldComposite _ | .markDrawn _ | .markHidden _ | .query _ _ | .qpop | .smpObj _ _
  | .smpTile _ _ _ | .smpAff _ | .smpBmp3 _ _ | .smpBmp4 _ _ | .smpBmp5 _ _ | .winEval _ _ _ | .accSeed | .accStep
  | .renderRow _ | .startFrame | .shouldFlush => none

/-- The commands that refuse a reserved video mode (R295). -/
def NeedsMode (i : Instr) : Prop := i = .startFrame ∨ i = .shouldFlush ∨ ∃ y, i = .renderRow y

/-- The condition of the fault of code `n` for a decoded command (spec/60_exceptions.md, the table that restates R291 to
R296). Code 0, `BAD_COMMAND`, is the decoder's. -/
def FaultApplies (s : State) (i : Instr) (n : Nat) : Prop :=
  (n = 1 ∧ ¬LegalIn s.bu.state i) ∨ (n = 2 ∧ ∃ p, prioOperand i = some p ∧ 3 < p.toNat)
    ∨ (n = 3 ∧ NeedsMode i ∧ 5 < s.host.reg.dispcnt.mode.toNat) ∨ (n = 4 ∧ ∃ y, i = .renderRow y ∧ 160 ≤ y.toNat)

/-- The only commands that write each part of the block-owned state (R22, R39, R40, R44, R79, R276, R293). -/
structure WritesOnly (i : Instr) (s t : State) : Prop where
  colset : t.colset ≠ s.colset → (∃ n, i = .markDrawn n) ∨ ∃ n, i = .markHidden n
  rowset : t.rowset ≠ s.rowset → (∃ n, i = .markDrawn n) ∨ ∃ n, i = .markHidden n
  objc : t.objc ≠ s.objc → (∃ n, i = .markDrawn n) ∨ ∃ n, i = .markHidden n
  qres : t.qres ≠ s.qres → i = .qpop
  qset : t.qset ≠ s.qset → (∃ x y, i = .query x y) ∨ i = .qpop ∨ (∃ x y, i = .smpObj x y) ∨ ∃ y, i = .renderRow y
  ores : t.ores ≠ s.ores → (∃ x y, i = .smpObj x y) ∨ ∃ y, i = .renderRow y
  bres : t.bres ≠ s.bres → (∃ n x y, i = .smpTile n x y) ∨ (∃ k, i = .smpAff k) ∨ (∃ x y, i = .smpBmp3 x y) ∨
    (∃ x y, i = .smpBmp4 x y) ∨ (∃ x y, i = .smpBmp5 x y) ∨ ∃ y, i = .renderRow y
  wres : t.wres ≠ s.wres → (∃ x y ow, i = .winEval x y ow) ∨ ∃ y, i = .renderRow y
  cres : t.cres ≠ s.cres → (∃ en, i = .bldComposite en) ∨ ∃ y, i = .renderRow y
  flush : t.flush ≠ s.flush → i = .shouldFlush
  acc : t.acc ≠ s.acc → i = .accSeed ∨ i = .accStep ∨ ∃ y, i = .renderRow y
  bu : t.bu ≠ s.bu → i = .bldReset ∨ (∃ c p m, i = .bldObj c p m) ∨ (∃ c p, i = .bldBg0 c p) ∨
    (∃ c p, i = .bldBg1 c p) ∨ (∃ c p, i = .bldBg2 c p) ∨ (∃ c p, i = .bldBg3 c p) ∨ (∃ c, i = .bldBackdrop c) ∨
    (∃ en, i = .bldComposite en) ∨ ∃ y, i = .renderRow y
  snap : t.snap ≠ s.snap → i = .startFrame ∨ i = .shouldFlush
  dirty : t.dirty ≠ s.dirty → i = .shouldFlush
  out : t.out ≠ s.out → ∃ y, i = .renderRow y
  fault : t.fault ≠ s.fault ∨ t.faultCmd ≠ s.faultCmd → canFault i = true

/-- Slot `slot` is in the column set and in the row set of a point of the screen (R147). -/
def Covers (s : State) (x y : Nat) (slot : SlotNo) : Prop :=
  ∃ (hx : x < 240) (hy : y < 160), bitOf s.colset[x] slot = true ∧ bitOf s.rowset[y] slot = true

/-- Slot `slot` has an opaque texel of colour index `idx` at a point (R166). -/
def OpaqueAt (s : State) (x y : Nat) (slot : SlotNo) (idx : Nat) : Prop :=
  Covers s x y slot ∧ objIndex s.host (Tab.get s.host.oam slot) (Tab.get s.objc slot) x y = some idx ∧ idx ≠ 0

/-- Slot `slot` is a drawable match at a point: "`gfx_mode = 0` or `1` is a drawable match" (R166). -/
def DrawableAt (s : State) (x y : Nat) (slot : SlotNo) (idx : Nat) : Prop :=
  OpaqueAt s x y slot idx ∧ ((Tab.get s.host.oam slot).gfxMode = 0 ∨ (Tab.get s.host.oam slot).gfxMode = 1)

/-- Slot `a` wins over slot `b`: a smaller priority, and "among equal priorities the lowest slot" (R167). -/
def Beats (s : State) (a b : SlotNo) : Prop :=
  (Tab.get s.host.oam a).priority < (Tab.get s.host.oam b).priority
    ∨ ((Tab.get s.host.oam a).priority = (Tab.get s.host.oam b).priority ∧ a ≤ b)

/-- The backgrounds a video mode tracks (R251, R44). -/
def Tracks (m : BitVec 3) (n : BitVec 2) : Prop :=
  m = 0 ∨ (m = 1 ∧ n ≠ 3) ∨ (m = 2 ∧ (n = 2 ∨ n = 3)) ∨ ((m = 3 ∨ m = 4 ∨ m = 5) ∧ n = 2)

/-- A snapshot holds what `Snap(REG)` holds, field by field (R252). -/
structure IsSnapOf (reg : Reg) (c : Snap) : Prop where
  tag : c.tag = reg.dispcnt.mode
  en : ∀ n : BitVec 2, bitOf c.en n = true ↔ Tracks reg.dispcnt.mode n ∧ bitOf reg.dispcnt.bgEnable n = true
  mos : ∀ n : BitVec 2, bitOf c.mos n = true ↔
    Tracks reg.dispcnt.mode n ∧ reg.dispcnt.mode.toNat ≤ 2 ∧ (Tab.get reg.bgcnt n).mosaic = true
  gran : reg.dispcnt.mode.toNat ≤ 2 → c.granH = reg.mosaic.bgH ∧ c.granV = reg.mosaic.bgV
  noGran : 2 < reg.dispcnt.mode.toNat → c.granH = 0 ∧ c.granV = 0
  page : c.page = true ↔ (reg.dispcnt.mode = 4 ∨ reg.dispcnt.mode = 5) ∧ reg.dispcnt.page = true

/-- The bits that every visible tile or affine background depends on, by number (R50, R254): `vram.bg_block[0..3]` and
`pal.bg`. -/
def TiledBit (n : Nat) : Prop := n = 9 ∨ n = 11 ∨ n = 12 ∨ n = 13 ∨ n = 14

/-- Dirty bit `n` is in `Rel(REG)` (R254), by the numbers of R50. -/
def RelevantBit (reg : Reg) (n : Nat) : Prop :=
  let m := reg.dispcnt.mode
  let en (k : BitVec 2) : Prop := bitOf reg.dispcnt.bgEnable k = true
  let p := if reg.dispcnt.page then 1 else 0
  n = 0 ∨ n = 1 ∨ n = 6
    ∨ (m = 0 ∧ ∃ k : BitVec 2, en k ∧ (n = 2 + k.toNat ∨ TiledBit n))
    ∨ (m = 1 ∧ ∃ k : BitVec 2, en k ∧ ((k.toNat < 2 ∧ n = 2 + k.toNat) ∨ (k = 2 ∧ n = 7) ∨ (k ≠ 3 ∧ TiledBit n)))
    ∨ (m = 2 ∧ ((en 2 ∧ (n = 7 ∨ TiledBit n)) ∨ (en 3 ∧ (n = 8 ∨ TiledBit n))))
    ∨ (m = 3 ∧ en 2 ∧ n = 15) ∨ (m = 4 ∧ en 2 ∧ (n = 16 + p ∨ n = 9)) ∨ (m = 5 ∧ en 2 ∧ n = 18 + p)

/-- `n` is `q` rounded half up: "`floor(n/16 + 1/2)`, the round-half-up of `n/16`" (R232). -/
def RoundsHalfUp (n : Nat) (q : ℚ) : Prop := (n : ℚ) ≤ q + 1 / 2 ∧ q + 1 / 2 < (n : ℚ) + 1

/-- A colour layer for a sequence of adds: colour and a 2-bit priority (R10, R291). -/
structure Sample where
  color : Colour
  prio : BitVec 2
deriving DecidableEq, Repr

/-- The command that adds background `n`. -/
def addCommand (n : BitVec 2) (c : Sample) : Instr :=
  match n.toNat with
  | 0 => .bldBg0 c.color (c.prio.setWidth 3)
  | 1 => .bldBg1 c.color (c.prio.setWidth 3)
  | 2 => .bldBg2 c.color (c.prio.setWidth 3)
  | _ => .bldBg3 c.color (c.prio.setWidth 3)

/-- The layers of a sequence in the order in which they are added: the object, if there is one, and the backgrounds that
have a sample, in ascending number (R220). -/
def addedLayers (b : BldCnt) (obj : Option (Sample × Bool)) (bg : BitVec 2 → Option Sample) : List Layer :=
  (obj.map fun o => layerOf b 4 o.1.color (o.1.prio.setWidth 3) o.2).toList
    ++ [(0 : BitVec 2), 1, 2, 3].flatMap fun n =>
      ((bg n).map fun c => layerOf b (n.setWidth 3) c.color (c.prio.setWidth 3) false).toList

/-- The commands of that sequence, from `BLD_RESET`. -/
def addCommands (obj : Option (Sample × Bool)) (bg : BitVec 2 → Option Sample) : List Instr :=
  .bldReset :: (obj.map fun o => Instr.bldObj o.1.color (o.1.prio.setWidth 3) o.2).toList
    ++ [(0 : BitVec 2), 1, 2, 3].flatMap fun n => ((bg n).map (addCommand n)).toList

/-! ### What a store of a named field does (R28 to R38, R100) -/

/-- Bit `n` of a group of flags became `b` and no other bit changed. -/
def BitStored {w : Nat} (v v' : BitVec w) (n : Nat) (b : Bool) : Prop :=
  ∀ i < w, v'.getLsbD i = if i = n then b else v.getLsbD i

/-- Entry `i` of a table became `a` and no other entry changed. -/
def EntryStored {α : Type} {n k : Nat} (v v' : Vector α n) (i : BitVec k) (a : α) (h : 2 ^ k = n := by rfl) : Prop :=
  ∀ j : BitVec k, Tab.get v' j h = if j = i then a else Tab.get v j h

/-- A mask of layers with bit `n` of its background group stored. -/
def MaskBgStored (m m' : LayerMask) (n : BitVec 2) (b : Bool) : Prop :=
  m' = { m with bg := m'.bg } ∧ BitStored m.bg m'.bg n.toNat b

/-- The store of a named field took `REG` from `r` to `r'`: that field has its value, and every other is as it was. -/
def RegFieldStored (r r' : Reg) : RegField → Prop
  | .mode v => r' = { r with dispcnt := { r.dispcnt with mode := v } }
  | .page v => r' = { r with dispcnt := { r.dispcnt with page := v } }
  | .obj1d v => r' = { r with dispcnt := { r.dispcnt with obj1d := v } }
  | .forcedBlank v => r' = { r with dispcnt := { r.dispcnt with forcedBlank := v } }
  | .bgEnable n v => r' = { r with dispcnt := { r.dispcnt with bgEnable := r'.dispcnt.bgEnable } } ∧
      BitStored r.dispcnt.bgEnable r'.dispcnt.bgEnable n.toNat v
  | .winEnable w v => r' = { r with dispcnt := { r.dispcnt with winEnable := r'.dispcnt.winEnable } } ∧
      BitStored r.dispcnt.winEnable r'.dispcnt.winEnable w.toNat v
  | .objwinEnable v => r' = { r with dispcnt := { r.dispcnt with objwinEnable := v } }
  | .bgPriority n v => r' = { r with bgcnt := r'.bgcnt } ∧
      EntryStored r.bgcnt r'.bgcnt n { Tab.get r.bgcnt n with priority := v }
  | .bgCharBase n v => r' = { r with bgcnt := r'.bgcnt } ∧
      EntryStored r.bgcnt r'.bgcnt n { Tab.get r.bgcnt n with charBase := v }
  | .bgMosaic n v => r' = { r with bgcnt := r'.bgcnt } ∧
      EntryStored r.bgcnt r'.bgcnt n { Tab.get r.bgcnt n with mosaic := v }
  | .bgColor8 n v => r' = { r with bgcnt := r'.bgcnt } ∧
      EntryStored r.bgcnt r'.bgcnt n { Tab.get r.bgcnt n with color8 := v }
  | .bgScreenBase n v => r' = { r with bgcnt := r'.bgcnt } ∧
      EntryStored r.bgcnt r'.bgcnt n { Tab.get r.bgcnt n with screenBase := v }
  | .bgWrap n v => r' = { r with bgcnt := r'.bgcnt } ∧
      EntryStored r.bgcnt r'.bgcnt n { Tab.get r.bgcnt n with wrap := v }
  | .bgSize n v => r' = { r with bgcnt := r'.bgcnt } ∧
      EntryStored r.bgcnt r'.bgcnt n { Tab.get r.bgcnt n with size := v }
  | .bgHofs n v => r' = { r with bgHofs := r'.bgHofs } ∧ EntryStored r.bgHofs r'.bgHofs n v
  | .bgVofs n v => r' = { r with bgVofs := r'.bgVofs } ∧ EntryStored r.bgVofs r'.bgVofs n v
  | .affPa k v => r' = { r with aff := r'.aff } ∧ EntryStored r.aff r'.aff k { Tab.get r.aff k with pa := v }
  | .affPb k v => r' = { r with aff := r'.aff } ∧ EntryStored r.aff r'.aff k { Tab.get r.aff k with pb := v }
  | .affPc k v => r' = { r with aff := r'.aff } ∧ EntryStored r.aff r'.aff k { Tab.get r.aff k with pc := v }
  | .affPd k v => r' = { r with aff := r'.aff } ∧ EntryStored r.aff r'.aff k { Tab.get r.aff k with pd := v }
  | .affX k v => r' = { r with aff := r'.aff } ∧ EntryStored r.aff r'.aff k { Tab.get r.aff k with x := v }
  | .affY k v => r' = { r with aff := r'.aff } ∧ EntryStored r.aff r'.aff k { Tab.get r.aff k with y := v }
  | .winLeft w v => r' = { r with win := r'.win } ∧ EntryStored r.win r'.win w { Tab.get r.win w with left := v }
  | .winRight w v => r' = { r with win := r'.win } ∧ EntryStored r.win r'.win w { Tab.get r.win w with right := v }
  | .winTop w v => r' = { r with win := r'.win } ∧ EntryStored r.win r'.win w { Tab.get r.win w with top := v }
  | .winBottom w v => r' = { r with win := r'.win } ∧ EntryStored r.win r'.win w { Tab.get r.win w with bottom := v }
  | .wininBg w n v => r' = { r with winin := r'.winin } ∧ EntryStored r.winin r'.winin w (Tab.get r'.winin w) ∧
      MaskBgStored (Tab.get r.winin w) (Tab.get r'.winin w) n v
  | .wininObj w v => r' = { r with winin := r'.winin } ∧
      EntryStored r.winin r'.winin w { Tab.get r.winin w with obj := v }
  | .wininBlend w v => r' = { r with winin := r'.winin } ∧
      EntryStored r.winin r'.winin w { Tab.get r.winin w with blend := v }
  | .winobjBg n v => r' = { r with winobj := r'.winobj } ∧ MaskBgStored r.winobj r'.winobj n v
  | .winobjObj v => r' = { r with winobj := { r.winobj with obj := v } }
  | .winobjBlend v => r' = { r with winobj := { r.winobj with blend := v } }
  | .winoutBg n v => r' = { r with winout := r'.winout } ∧ MaskBgStored r.winout r'.winout n v
  | .winoutObj v => r' = { r with winout := { r.winout with obj := v } }
  | .winoutBlend v => r' = { r with winout := { r.winout with blend := v } }
  | .mosaicBgH v => r' = { r with mosaic := { r.mosaic with bgH := v } }
  | .mosaicBgV v => r' = { r with mosaic := { r.mosaic with bgV := v } }
  | .mosaicObjH v => r' = { r with mosaic := { r.mosaic with objH := v } }
  | .mosaicObjV v => r' = { r with mosaic := { r.mosaic with objV := v } }
  | .bldMode v => r' = { r with bldcnt := { r.bldcnt with mode := v } }
  | .targetA l v => r' = { r with bldcnt := { r.bldcnt with targetA := r'.bldcnt.targetA } } ∧
      BitStored r.bldcnt.targetA r'.bldcnt.targetA l.val v
  | .targetB l v => r' = { r with bldcnt := { r.bldcnt with targetB := r'.bldcnt.targetB } } ∧
      BitStored r.bldcnt.targetB r'.bldcnt.targetB l.val v
  | .eva v => r' = { r with eva := v }
  | .evb v => r' = { r with evb := v }
  | .evy v => r' = { r with evy := v }

/-- The store of a named field took a sprite descriptor from `a` to `a'` (R37). -/
def OamFieldStored (a a' : ObjAttr) : OamField → Prop
  | .y v => a' = { a with y := v }
  | .x v => a' = { a with x := v }
  | .affine v => a' = { a with affine := v }
  | .doubleSize v => a' = { a with doubleSize := v }
  | .gfxMode v => a' = { a with gfxMode := v }
  | .mosaic v => a' = { a with mosaic := v }
  | .color8 v => a' = { a with color8 := v }
  | .shape v => a' = { a with shape := v }
  | .size v => a' = { a with size := v }
  | .hflip v => a' = { a with hflip := v }
  | .vflip v => a' = { a with vflip := v }
  | .affGroup v => a' = { a with affGroup := v }
  | .tile v => a' = { a with tile := v }
  | .priority v => a' = { a with priority := v }
  | .palette v => a' = { a with palette := v }

/-- The store of a named field took a sprite affine group from `g` to `g'` (R38). -/
def ObjAffFieldStored (g g' : ObjAffine) : ObjAffField → Prop
  | .pa v => g' = { g with pa := v }
  | .pb v => g' = { g with pb := v }
  | .pc v => g' = { g with pc := v }
  | .pd v => g' = { g with pd := v }

/-! ### Assembler operands -/

/-- The operands of a command in the order of the table of R106; `SMP_AFF` is written with the background, 2 or 3. -/
def sourceOperands : Instr → List Nat
  | .markDrawn slot | .markHidden slot => [slot.toNat]
  | .query x y | .smpObj x y | .smpBmp3 x y | .smpBmp4 x y | .smpBmp5 x y => [x.toNat, y.toNat]
  | .smpTile bg x y => [bg.toNat, x.toNat, y.toNat]
  | .smpAff k => [2 + k.toNat]
  | .winEval x y ow => [x.toNat, y.toNat, ow.toNat]
  | .bldObj color prio semi => [color.toNat, prio.toNat, semi.toNat]
  | .bldBg0 color prio | .bldBg1 color prio | .bldBg2 color prio | .bldBg3 color prio => [color.toNat, prio.toNat]
  | .bldBackdrop color => [color.toNat]
  | .bldComposite blendEn => [blendEn.toNat]
  | .renderRow y => [y.toNat]
  | .qpop | .bldReset | .accSeed | .accStep | .startFrame | .shouldFlush => []

/-- Whether a transaction is the reset input. -/
def isReset : HostTxn → Bool
  | .reset _ => true
  | .command _ | .store _ | .dirtySet _ | .readResult _ | .readOut _ _ => false

end Sys2Proof.Machine
end

