-- ==== Sys2Proof/Certificates/Slice0/Obligations.lean ====
section
/-! DEFINITION. The statements for the provers. Each formalises the rules of spec/ that its docstring names; a clause that
rests on a choice of the model names the log entry. A command's statement has the next state as its conclusion, for every
state and operand that meets its hypotheses; what it leaves unchanged is said by an equation between the next state and
the old one with only the named fields replaced, so that it covers every other register and every unit of memory. -/

open Sys2Proof Sys2Proof.Machine

/-! ### Encoding -/

/-- Decode and encode agree: R101, R102, R106. -/
def Obligations.DecodeEncode : Prop := ∀ i : Instr, decode (encode i) = .ok i

/-- No bit of a command word is dropped by the decoder: R102, R105. -/
def Obligations.EncodeDecode : Prop := ∀ (w : Word) (i : Instr), decode w = .ok i → encode i = w

/-- R102: a word is the command of a row of the table iff it matches the row under its mask. -/
def Obligations.DecodesRowIffMatch : Prop :=
  ∀ r ∈ opcodeTable, ∀ w : Word,
    (w &&& r.format.mask = r.matchWord) ↔ ∃ i, decode w = .ok i ∧ i.mnemonic = r.mnemonic

/-- R104: the two kinds of illegal word, by the opcode list of the rule, and every illegal word is one that matches no
row. -/
def Obligations.IllegalWordKinds : Prop :=
  ∀ w : Word,
    let op := w.toNat / 2 ^ 24
    let listed := (1 ≤ op ∧ op ≤ 4) ∨ (8 ≤ op ∧ op ≤ 0x0E) ∨ (0x10 ≤ op ∧ op ≤ 0x1A) ∨ op = 0x20 ∨ op = 0x21
    (decode w = .error .unknownOpcode ↔ ¬listed) ∧
    (decode w = .error .reservedBitSet ↔ listed ∧ ∀ r ∈ opcodeTable, w &&& r.format.mask ≠ r.matchWord)

/-- Words written out from R102 and R106 decode to the commands they stand for: one word of each unit. -/
def Obligations.SampleWordsDecode : Prop :=
  decode 0x0100002A = .ok (.markDrawn 42) ∧ decode 0x03000404 = .ok (.query 4 4) ∧ decode 0x04000000 = .ok .qpop ∧
  decode 0x0800A0F0 = .ok (.smpObj 0xF0 0xA0) ∧ decode 0x09020106 = .ok (.smpTile 2 6 1) ∧
  decode 0x0A010000 = .ok (.smpAff 1) ∧ decode 0x0D007F9F = .ok (.smpBmp5 159 127) ∧
  decode 0x0E01050A = .ok (.winEval 10 5 true) ∧ decode 0x1104801F = .ok (.bldObj 0x001F 1 true) ∧
  decode 0x1300FC00 = .ok (.bldBg1 0x7C00 1) ∧ decode 0x17000001 = .ok (.bldComposite true) ∧
  decode 0x1A000300 = .ok (.renderRow 3) ∧ decode 0x21000000 = .ok .shouldFlush

/-- R106: a command is assembled from its mnemonic and its operands in the order of the table, `SMP_AFF` with background 2
or 3, and from nothing else. -/
def Obligations.AssemblerSpellsEveryCommand : Prop :=
  ∀ (m : String) (ops : List Nat) (i : Instr), assemble m ops = some i ↔ m = i.mnemonic ∧ ops = sourceOperands i

/-! ### A step, and the ports -/

/-- A step runs the decoded command, in the state from which its word is taken (R81, R100); and a word placed with
`withFetchWord` is what the next step runs. With nothing to come the step waits (R310; notes/assumptions/2.md). -/
def Obligations.StepRunsDecodedCommand : Prop :=
  (∀ (s : State) (w : Word) (rest : List HostTxn) (i : Instr), s.inbox = .command w :: rest → decode w = .ok i →
    step s = exec i { s with inbox := rest }) ∧
  (∀ (s : State) (nbits w : Nat) (i : Instr), decodeTableWord nbits w = some i →
    step (State.withFetchWord s nbits w) = exec i s) ∧
  (∀ s : State, s.inbox = [] → step s = .next s)

/-- R104 and R290: a word that matches no row raises `BAD_COMMAND`, records the word if it is the first fault, and
changes no other state. -/
def Obligations.IllegalWordRaisesBadCommand : Prop :=
  ∀ (s : State) (w : Word) (rest : List HostTxn), s.inbox = .command w :: rest →
    (∀ r ∈ opcodeTable, w &&& r.format.mask ≠ r.matchWord) →
    ∃ t, step s = .next t ∧
      t = { s with inbox := rest, fault := t.fault, faultCmd := t.faultCmd } ∧
      (∀ n, t.fault.getLsbD n = (s.fault.getLsbD n || decide (n = 0))) ∧
      t.faultCmd = if s.fault = 0 then w else s.faultCmd

/-- R109: the dirty-set port ORs its mask into `DIRTY` and does nothing else; and apart from that port and reset, only
`SHOULD_FLUSH` changes a bit of `DIRTY`, and it only clears. -/
def Obligations.DirtyBitsChange : Prop :=
  (∀ (s : State) (m : DirtySet) (rest : List HostTxn), s.inbox = .dirtySet m :: rest →
    ∃ t, step s = .next t ∧ t = { s with inbox := rest, dirty := t.dirty } ∧
      ∀ n : Nat, t.dirty.getLsbD n = (s.dirty.getLsbD n || m.getLsbD n)) ∧
  (∀ (s t : State) (x : HostTxn) (rest : List HostTxn), s.inbox = x :: rest → step s = .next t → t.dirty ≠ s.dirty →
    (∃ m, x = .dirtySet m) ∨ (isReset x = true ∧ t.dirty = BitVec.allOnes 21) ∨
      (x = .command (encode .shouldFlush) ∧ ∀ n : Nat, t.dirty.getLsbD n = true → s.dirty.getLsbD n = true))

/-- The store port reaches host-owned state alone (R20, R21, R300), and a well-formed store is carried out. A store of a
named field of `REG`, `OAM` or `OBJAFF` gives that field its value and changes no other (R28 to R38, R100). A store to
`VRAM` or `PAL` changes the stored bytes, little-endian (R72), and no other byte; the premise of that part is the
invariant of the memories. -/
def Obligations.StorePort : Prop :=
  (∀ (s : State) (st : HostStore) (rest : List HostTxn), s.inbox = .store st :: rest → st.malformed = none →
    ∃ t, step s = .next t ∧ t = { s with inbox := rest, host := t.host }) ∧
  (∀ (s : State) (f : RegField) (rest : List HostTxn), s.inbox = .store (.regField f) :: rest →
    ∃ t, step s = .next t ∧ t.host = { s.host with reg := t.host.reg } ∧ RegFieldStored s.host.reg t.host.reg f) ∧
  (∀ (s : State) (n : SlotNo) (f : OamField) (rest : List HostTxn), s.inbox = .store (.oamField n f) :: rest →
    ∃ t, step s = .next t ∧ t.host = { s.host with oam := t.host.oam } ∧
      EntryStored s.host.oam t.host.oam n (Tab.get t.host.oam n) ∧
      OamFieldStored (Tab.get s.host.oam n) (Tab.get t.host.oam n) f) ∧
  (∀ (s : State) (g : BitVec 5) (f : ObjAffField) (rest : List HostTxn), s.inbox = .store (.objAffField g f) :: rest →
    ∃ t, step s = .next t ∧ t.host = { s.host with objAff := t.host.objAff } ∧
      EntryStored s.host.objAff t.host.objAff g (Tab.get t.host.objAff g) ∧
      ObjAffFieldStored (Tab.get s.host.objAff g) (Tab.get t.host.objAff g) f) ∧
  ∀ (s : State) (rest : List HostTxn), MemoryInv s →
    (∀ (a : Nat) (v : Byte), a < 0x18000 → s.inbox = .store (.vramByte a v) :: rest →
      ∃ t, step s = .next t ∧ t.host = { s.host with vram := t.host.vram } ∧
        ∀ b, Memory.read t.host.vram b = if b = a then v else Memory.read s.host.vram b) ∧
    (∀ (a : Nat) (v : Half), a < 0x18000 → a % 2 = 0 → s.inbox = .store (.vramHalf a v) :: rest →
      ∃ t, step s = .next t ∧ t.host = { s.host with vram := t.host.vram } ∧
        v.toNat = (Memory.read t.host.vram a).toNat + 256 * (Memory.read t.host.vram (a + 1)).toNat ∧
        ∀ b, b ≠ a → b ≠ a + 1 → Memory.read t.host.vram b = Memory.read s.host.vram b) ∧
    (∀ (a : Nat) (v : Byte), a < 0x400 → s.inbox = .store (.palByte a v) :: rest →
      ∃ t, step s = .next t ∧ t.host = { s.host with pal := t.host.pal } ∧
        ∀ b, Memory.read t.host.pal b = if b = a then v else Memory.read s.host.pal b) ∧
    (∀ (a : Nat) (v : Half), a < 0x400 → a % 2 = 0 → s.inbox = .store (.palHalf a v) :: rest →
      ∃ t, step s = .next t ∧ t.host = { s.host with pal := t.host.pal } ∧
        v.toNat = (Memory.read t.host.pal a).toNat + 256 * (Memory.read t.host.pal (a + 1)).toNat ∧
        ∀ b, b ≠ a → b ≠ a + 1 → Memory.read t.host.pal b = Memory.read s.host.pal b)

/-- When a step stops, and with which fault: a store at an address outside `VRAM` (R70), `PAL` (R71) or the space of `OAM`
(R78); a 2-byte store at an odd address (R73); a read of a cell that `OUT` does not have (R79). That these stop is the
choice of the model (notes/assumptions/7.md, 8.md, 9.md). Nothing else stops, so no command word does (R301). -/
def Obligations.StopsOnMalformedOnly : Prop :=
  ∀ s : State,
    let stores (st : HostStore) : Prop := ∃ rest, s.inbox = .store st :: rest
    let outside : Prop := (∃ a v, stores (.vramByte a v) ∧ 0x18000 ≤ a) ∨ (∃ a v, stores (.vramHalf a v) ∧ 0x18000 ≤ a) ∨
      (∃ a v, stores (.palByte a v) ∧ 0x400 ≤ a) ∨ (∃ a v, stores (.palHalf a v) ∧ 0x400 ≤ a) ∨
      ∃ a v, stores (.oamHalf a v) ∧ 0x400 ≤ a
    let odd : Prop := (∃ a v, stores (.vramHalf a v) ∧ a < 0x18000 ∧ a % 2 = 1) ∨
      (∃ a v, stores (.palHalf a v) ∧ a < 0x400 ∧ a % 2 = 1) ∨ ∃ a v, stores (.oamHalf a v) ∧ a < 0x400 ∧ a % 2 = 1
    let noCell : Prop := ∃ row col rest, s.inbox = .readOut row col :: rest ∧ (160 ≤ row ∨ 240 ≤ col)
    (step s = .fault .storeOutsideSpace ↔ outside) ∧ (step s = .fault .misalignedStore ↔ odd) ∧
    (step s = .fault .readOutsideOut ↔ noCell) ∧ ((∀ t, step s ≠ .next t) ↔ outside ∨ odd ∨ noCell)

/-- R111, the raw layout of `OAM` and `OBJAFF`: storing a raw word is storing each of its fields. -/
def Obligations.RawOamWordIsItsFields : Prop :=
  ∀ (s : SlotNo) (v : Half) (h : HostMem),
    let onSlot (fs : List OamField) : HostMem := fs.foldl (fun h f => putStore (.oamField s f) h) h
    putStore (.oamHalf (8 * s.toNat) v) h =
      onSlot [.y (v.extractLsb' 0 8), .affine (v.getLsbD 8), .doubleSize (v.getLsbD 9), .gfxMode (v.extractLsb' 10 2),
        .mosaic (v.getLsbD 12), .color8 (v.getLsbD 13), .shape (v.extractLsb' 14 2)] ∧
    putStore (.oamHalf (8 * s.toNat + 2) v) h =
      onSlot [.x (v.extractLsb' 0 9), .affGroup (v.extractLsb' 9 5), .hflip (v.getLsbD 12), .vflip (v.getLsbD 13),
        .size (v.extractLsb' 14 2)] ∧
    putStore (.oamHalf (8 * s.toNat + 4) v) h =
      onSlot [.tile (v.extractLsb' 0 10), .priority (v.extractLsb' 10 2), .palette (v.extractLsb' 12 4)] ∧
    ∀ g : BitVec 5,
      putStore (.oamHalf (8 * (4 * g.toNat) + 6) v) h = putStore (.objAffField g (.pa v)) h ∧
      putStore (.oamHalf (8 * (4 * g.toNat + 1) + 6) v) h = putStore (.objAffField g (.pb v)) h ∧
      putStore (.oamHalf (8 * (4 * g.toNat + 2) + 6) v) h = putStore (.objAffField g (.pc v)) h ∧
      putStore (.oamHalf (8 * (4 * g.toNat + 3) + 6) v) h = putStore (.objAffField g (.pd v)) h

/-- R110, the raw layout of `REG`: storing a raw word is storing each of its fields, word by word of the table, and a bit
that the table does not list has no effect. The rows `X` and `Y` are stored as one 32-bit word (notes/assumptions/12.md).
The last clause, that a store at an odd offset or at one that the table does not list changes nothing, is the model's
(notes/assumptions/7.md). -/
def Obligations.RawRegWordIsItsFields : Prop :=
  ∀ (v : Half) (z : Word) (h : HostMem) (n : BitVec 2) (k : BitVec 1),
    let fields (fs : List RegField) : HostMem := fs.foldl (fun h f => putStore (.regField f) h) h
    let six (f : BitVec 2 → Bool → RegField) (o : Nat) : List RegField :=
      [f 0 (v.getLsbD o), f 1 (v.getLsbD (o + 1)), f 2 (v.getLsbD (o + 2)), f 3 (v.getLsbD (o + 3))]
    let targets (f : Fin 6 → Bool → RegField) (o : Nat) : List RegField :=
      (List.finRange 6).map fun l => f l (v.getLsbD (o + l.val))
    putStore (.regHalf 0x00 v) h = fields ([.mode (v.extractLsb' 0 3), .page (v.getLsbD 4), .obj1d (v.getLsbD 6),
      .forcedBlank (v.getLsbD 7), .winEnable 0 (v.getLsbD 13), .winEnable 1 (v.getLsbD 14),
      .objwinEnable (v.getLsbD 15)] ++ six .bgEnable 8) ∧
    putStore (.regHalf (0x08 + 2 * n.toNat) v) h = fields [.bgPriority n (v.extractLsb' 0 2),
      .bgCharBase n (v.extractLsb' 2 2), .bgMosaic n (v.getLsbD 6), .bgColor8 n (v.getLsbD 7),
      .bgScreenBase n (v.extractLsb' 8 5), .bgWrap n (v.getLsbD 13), .bgSize n (v.extractLsb' 14 2)] ∧
    putStore (.regHalf (0x10 + 4 * n.toNat) v) h = fields [.bgHofs n (v.extractLsb' 0 9)] ∧
    putStore (.regHalf (0x12 + 4 * n.toNat) v) h = fields [.bgVofs n (v.extractLsb' 0 9)] ∧
    putStore (.regHalf (0x20 + 16 * k.toNat) v) h = fields [.affPa k v] ∧
    putStore (.regHalf (0x22 + 16 * k.toNat) v) h = fields [.affPb k v] ∧
    putStore (.regHalf (0x24 + 16 * k.toNat) v) h = fields [.affPc k v] ∧
    putStore (.regHalf (0x26 + 16 * k.toNat) v) h = fields [.affPd k v] ∧
    putStore (.regWord (0x28 + 16 * k.toNat) z) h = fields [.affX k (z.extractLsb' 0 28)] ∧
    putStore (.regWord (0x2C + 16 * k.toNat) z) h = fields [.affY k (z.extractLsb' 0 28)] ∧
    putStore (.regHalf (0x40 + 2 * k.toNat) v) h =
      fields [.winRight k (v.extractLsb' 0 8), .winLeft k (v.extractLsb' 8 8)] ∧
    putStore (.regHalf (0x44 + 2 * k.toNat) v) h =
      fields [.winBottom k (v.extractLsb' 0 8), .winTop k (v.extractLsb' 8 8)] ∧
    putStore (.regHalf 0x48 v) h = fields (six (.wininBg 0) 0 ++ [.wininObj 0 (v.getLsbD 4),
      .wininBlend 0 (v.getLsbD 5)] ++ six (.wininBg 1) 8 ++ [.wininObj 1 (v.getLsbD 12), .wininBlend 1 (v.getLsbD 13)]) ∧
    putStore (.regHalf 0x4A v) h = fields (six .winoutBg 0 ++ [.winoutObj (v.getLsbD 4), .winoutBlend (v.getLsbD 5)] ++
      six .winobjBg 8 ++ [.winobjObj (v.getLsbD 12), .winobjBlend (v.getLsbD 13)]) ∧
    putStore (.regHalf 0x4C v) h = fields [.mosaicBgH (v.extractLsb' 0 4), .mosaicBgV (v.extractLsb' 4 4),
      .mosaicObjH (v.extractLsb' 8 4), .mosaicObjV (v.extractLsb' 12 4)] ∧
    putStore (.regHalf 0x50 v) h = fields (targets .targetA 0 ++ [.bldMode (v.extractLsb' 6 2)] ++ targets .targetB 8) ∧
    putStore (.regHalf 0x52 v) h = fields [.eva (v.extractLsb' 0 5), .evb (v.extractLsb' 8 5)] ∧
    putStore (.regHalf 0x54 v) h = fields [.evy (v.extractLsb' 0 5)] ∧
    ∀ off : Nat, off % 2 = 1 ∨ off = 0x02 ∨ off = 0x04 ∨ off = 0x06 ∨ off = 0x4E ∨ 0x56 ≤ off →
      putStore (.regHalf off v) h = h

/-- R108: a read delivers the packed fields of the register, "unused high bits read 0", and 0 for a number not listed;
it has no side effect. Each value is the sum of its fields at their places. A read of a cell of `OUT` delivers the
cell (R79, R100; its number is that of notes/assumptions/10.md). That the value delivered stands in `readData`
is the model's choice (notes/assumptions/6.md). -/
def Obligations.ResultReadPort : Prop :=
  (∀ (s : State) (row col : Nat) (rest : List HostTxn), s.inbox = .readOut row col :: rest → row < 160 → col < 240 →
    ∃ t, step s = .next t ∧ t = { s with inbox := rest, readData := t.readData } ∧
      t.readData.toNat = (Memory.read s.out (240 * row + col)).toNat) ∧
  ∀ (s : State) (r : Nat) (rest : List HostTxn), s.inbox = .readResult r :: rest →
    ∃ t, step s = .next t ∧ t = { s with inbox := rest, readData := t.readData } ∧
      (r = 0 → t.readData.toNat = s.fault.toNat) ∧ (r = 1 → t.readData = s.faultCmd) ∧
      (r = 2 → t.readData.toNat = s.qres.slot.toNat + s.qres.valid.toNat * 2 ^ 7) ∧
      (r = 3 → t.readData.toNat = s.ores.color.toNat + s.ores.prio.toNat * 2 ^ 15 + s.ores.semi.toNat * 2 ^ 17 +
        s.ores.objwin.toNat * 2 ^ 18 + s.ores.found.toNat * 2 ^ 19) ∧
      (r = 4 → t.readData.toNat = s.bres.color.toNat + s.bres.valid.toNat * 2 ^ 15) ∧
      (r = 5 → t.readData.toNat = s.wres.bg.toNat + s.wres.obj.toNat * 2 ^ 4 + s.wres.blend.toNat * 2 ^ 5) ∧
      (r = 6 → t.readData.toNat = s.cres.toNat) ∧ (r = 7 → t.readData.toNat = s.flush.toNat) ∧
      (8 ≤ r → r ≤ 11 → ∀ n < 32, t.readData.getLsbD n = s.qset.getLsbD (32 * (r - 8) + n)) ∧
      (r = 12 → t.readData = s.acc[0].x) ∧ (r = 13 → t.readData = s.acc[0].y) ∧
      (r = 14 → t.readData = s.acc[1].x) ∧ (r = 15 → t.readData = s.acc[1].y) ∧
      (r = 16 → t.readData.toNat = BuState.rank s.bu.state) ∧
      (∀ l, (r = 17 ∧ l = s.bu.slot0) ∨ (r = 18 ∧ l = s.bu.slot1) →
        t.readData.toNat = l.color.toNat + l.prio.toNat * 2 ^ 15 + l.tgtA.toNat * 2 ^ 18 + l.tgtB.toNat * 2 ^ 19 +
          l.blendedObj.toNat * 2 ^ 20 + l.layer.toNat * 2 ^ 21) ∧
      (r = 19 → t.readData.toNat = s.dirty.toNat) ∧
      (r = 20 → t.readData.toNat = s.snap.tag.toNat + s.snap.en.toNat * 2 ^ 3 + s.snap.mos.toNat * 2 ^ 7 +
        s.snap.granH.toNat * 2 ^ 11 + s.snap.granV.toNat * 2 ^ 15 + s.snap.page.toNat * 2 ^ 19) ∧
      (21 ≤ r → t.readData = 0)

/-! ### Reset -/

/-- R60, R310: the reset state, whatever the host-owned memories and `OUT` hold, and that the reset input leads to it. What
the memories hold after the reset input is the transaction's to say (notes/assumptions/5.md); they read as it says. -/
def Obligations.ResetValues : Prop :=
  ∀ (m : LaunchMem) (rest : List HostTxn),
    let s := State.launch m rest
    (∀ (x : Nat) (h : x < 240), s.colset[x] = 0) ∧ (∀ (y : Nat) (h : y < 160), s.rowset[y] = 0) ∧
    (∀ n : SlotNo, Tab.get s.objc n =
      { texW := 0, texH := 0, rectX := 0, rectY := 0, rectW := 0, rectH := 0, cx := 0, cy := 0, clipX0 := 0,
        clipX1 := 0, clipY0 := 0, clipY1 := 0 }) ∧
    s.qset = 0 ∧ packQRes s.qres = 0 ∧ packORes s.ores = 0 ∧ packBRes s.bres = 0 ∧ packMask s.wres = 0 ∧ s.cres = 0 ∧
    s.flush = false ∧ (∀ k : BitVec 1, Tab.get s.acc k = { x := 0, y := 0 }) ∧ s.bu.state = .reset ∧
    (∀ l, l = s.bu.slot0 ∨ l = s.bu.slot1 →
      l = { color := 0, prio := 7, tgtA := false, tgtB := false, blendedObj := false, layer := 7 }) ∧
    packSnap s.snap = 0 ∧ s.dirty = BitVec.allOnes 21 ∧ s.fault = 0 ∧ s.faultCmd = 0 ∧
    (∀ a < 0x18000, Memory.read s.host.vram a = Memory.read m.host.vram a) ∧
    (∀ a < 0x400, Memory.read s.host.pal a = Memory.read m.host.pal a) ∧
    (∀ r c, r < 160 → c < 240 → outCell s r c = Memory.read m.out (240 * r + c)) ∧
    (∀ u : State, u.inbox = .reset m :: rest → step u = .next s)

/-- The invariant holds right after reset (R41, R311), for every launch; the model's `State.reset` is one. -/
def Obligations.InvAtReset : Prop := (∀ m inbox, StateInv (State.launch m inbox)) ∧ StateInv State.reset

/-! ### Invariants that every step keeps -/

/-- The sentence that spec/10_state.md derives from R60, R142 and R145: "The invariant holds after reset and is preserved by
every command". -/
def Obligations.VisibilityInvKept : Prop :=
  (∀ m inbox, VisibilityInv (State.launch m inbox)) ∧
  (∀ s t, VisibilityInv s → step s = .next t → VisibilityInv t)

/-- The blend unit's slots always hold layers already added, the best first, filled from slot 0, each layer once. -/
def Obligations.BlendInvKept : Prop := ∀ s t, BlendInv s → step s = .next t → BlendInv t

/-- Every memory keeps its canonical form and stays inside its space. -/
def Obligations.MemoryInvKept : Prop := ∀ s t, MemoryInv s → step s = .next t → MemoryInv t

/-- The geometry cache stays in the ranges of R40, a hidden slot with neither width nor height; a snapshot field that the
tag's mode does not use is held at 0 (R44); a result that is not valid is 0, of `QRES` by R148, of `ORES` by R160, of
`BRES` by R198; bit 15 of `CRES` is 0 (R22, R230); `FAULT_CMD` is 0 until the first fault (R60, R293). -/
def Obligations.RegisterInvKept : Prop :=
  (∀ s t, CacheInv s → step s = .next t → CacheInv t) ∧ (∀ s t, SnapInv s → step s = .next t → SnapInv t) ∧
  (∀ s t, ResultInv s → step s = .next t → ResultInv t) ∧ (∀ s t, FaultInv s → step s = .next t → FaultInv t)

/-! ### Faults -/

/-- R291 to R296 with their table in spec/60_exceptions.md: a command whose conditions do not apply leaves `FAULT` and
`FAULT_CMD` alone; one whose conditions apply sets exactly their bits, records its word if it is the first, and changes
nothing else; the word is the one that was issued. A word that does not decode sets `BAD_COMMAND` alone, whatever the
state (R294). -/
def Obligations.FaultsArePrecise : Prop :=
  (∀ (i : Instr) (s : State), ∃ t, exec i s = .next t ∧
    (∀ n : Nat, t.fault.getLsbD n = true ↔ s.fault.getLsbD n = true ∨ FaultApplies s i n) ∧
    ((∀ n, ¬FaultApplies s i n) → t.faultCmd = s.faultCmd) ∧
    ((∃ n, FaultApplies s i n) →
      t = { s with fault := t.fault, faultCmd := if s.fault = 0 then encode i else s.faultCmd }) ∧
    ∀ w : Word, decode w = .ok i → encode i = w) ∧
  ∀ (w : Word) (s : State), (∀ i, decode w ≠ .ok i) → ∃ t, runCommand w s = .next t ∧
    (∀ n : Nat, t.fault.getLsbD n = true ↔ s.fault.getLsbD n = true ∨ n = 0) ∧
    t = { s with fault := t.fault, faultCmd := if s.fault = 0 then w else s.faultCmd }

/-- R299: only reset clears `FAULT` or `FAULT_CMD`; the bits accumulate, and the first faulting command's word stays. A
faulting command leaves the machine going. -/
def Obligations.FaultsAreSticky : Prop :=
  ∀ (s t : State) (x : HostTxn) (rest : List HostTxn), s.inbox = x :: rest → isReset x = false → step s = .next t →
    (∀ n : Nat, s.fault.getLsbD n = true → t.fault.getLsbD n = true) ∧ (s.fault ≠ 0 → t.faultCmd = s.faultCmd) ∧
    (t.fault = s.fault ∨ ∃ w, x = .command w ∧ (s.fault = 0 → t.faultCmd = w))

/-- R295: `RENDER_ROW`, `START_FRAME` and `SHOULD_FLUSH` in mode 6 or 7 raise `RESERVED_MODE` and write nothing but the
fault state. For every other command the mode makes no difference: run under any other mode it does the same. `SMP_OBJ`
tells apart only modes 3 to 5 from the rest, 6 and 7 among the rest, and does not fault. -/
def Obligations.ModeReaders : Prop :=
  (∀ (i : Instr) (s : State), NeedsMode i → (s.host.reg.dispcnt.mode = 6 ∨ s.host.reg.dispcnt.mode = 7) →
    ∃ t, exec i s = .next t ∧ t.fault.getLsbD 3 = true ∧ t = { s with fault := t.fault, faultCmd := t.faultCmd }) ∧
  (∀ (i : Instr) (s t : State) (m : BitVec 3), ¬NeedsMode i →
    ((∃ x y, i = .smpObj x y) → (bitmapMode m = bitmapMode s.host.reg.dispcnt.mode)) → exec i s = .next t →
    exec i { s with host := putStore (.regField (.mode m)) s.host } =
      .next { t with host := putStore (.regField (.mode m)) t.host }) ∧
  ∀ (x y : BitVec 8) (s : State), ∃ t, exec (.smpObj x y) s = .next t ∧ t.fault = s.fault ∧ t.faultCmd = s.faultCmd

/-! ### Ownership of state -/

/-- R21, R300: no command writes host-owned state, byte of memory by byte of memory; and none touches the model's own
fields. -/
def Obligations.CommandsLeaveHostState : Prop :=
  ∀ (i : Instr) (s t : State), exec i s = .next t →
    t.host.reg = s.host.reg ∧ t.host.oam = s.host.oam ∧ t.host.objAff = s.host.objAff ∧
    (∀ a, Memory.read t.host.vram a = Memory.read s.host.vram a) ∧
    (∀ a, Memory.read t.host.pal a = Memory.read s.host.pal a) ∧ t.host = s.host ∧
    t.inbox = s.inbox ∧ t.readData = s.readData

/-- Who writes what: every part of the block-owned state changes only by the commands that the rules name for it (R22,
R39, R40, R44, R50, R79). -/
def Obligations.WritersOfState : Prop := ∀ (i : Instr) (s t : State), exec i s = .next t → WritesOnly i s t

/-! ### The visibility index -/

/-- R142, R317. A slot that is filled: the sets of exactly the covered columns and rows gain the slot, and the cache entry
gets the geometry of R140, R141, R143, R144; nothing else changes. On a drawn slot, on a non-affine sprite with
double-size set and on the reserved shape the command does nothing. -/
def Obligations.MarkDrawnResult : Prop :=
  ∀ (slot : SlotNo) (s : State),
    let a := Tab.get s.host.oam slot
    let f : Nat := if a.doubleSize then 2 else 1
    let tw := (objDim a.shape a.size).1
    let th := (objDim a.shape a.size).2
    let y0 : Int := if a.y.toInt + f * th ≤ 0 then a.y.toNat else a.y.toInt
    let skip : Prop := (Tab.get s.objc slot).texW ≠ 0 ∨ (a.affine = false ∧ a.doubleSize = true) ∨ a.shape = 3
    (skip → exec (.markDrawn slot) s = .next s) ∧
    (¬skip → ∃ t, exec (.markDrawn slot) s = .next t ∧
      t = { s with colset := t.colset, rowset := t.rowset, objc := t.objc } ∧
      (∀ (o : SlotNo) (x : Nat) (h : x < 240), bitOf t.colset[x] o = true ↔
        bitOf s.colset[x] o = true ∨ (o = slot ∧ a.x.toInt ≤ x ∧ (x : Int) < a.x.toInt + f * tw)) ∧
      (∀ (o : SlotNo) (y : Nat) (h : y < 160), bitOf t.rowset[y] o = true ↔
        bitOf s.rowset[y] o = true ∨ (o = slot ∧ y0 ≤ y ∧ (y : Int) < y0 + f * th)) ∧
      (∀ o, o ≠ slot → Tab.get t.objc o = Tab.get s.objc o) ∧
      (let c := Tab.get t.objc slot
       c.texW = tw ∧ c.texH = th ∧ c.rectX = a.x.toInt ∧ c.rectY = y0 ∧ c.rectW = f * tw ∧ c.rectH = f * th ∧
       c.cx = a.x.toInt + (f * tw / 2 : Nat) ∧ c.cy = y0 + (f * th / 2 : Nat) ∧
       (c.clipX0 : Int) = max 0 (min 240 a.x.toInt) ∧ (c.clipX1 : Int) = max 0 (min 240 (a.x.toInt + f * tw)) ∧
       (c.clipY0 : Int) = max 0 (min 160 y0) ∧ (c.clipY1 : Int) = max 0 (min 160 (y0 + f * th))))

/-- R145: `MARK_HIDDEN` removes the slot from the sets inside its cached clipped bounds, whatever `OAM` holds now, and
clears the two size fields; on a hidden slot it does nothing, so it is idempotent. With the invariant of R41 the slot is
then in no set. -/
def Obligations.MarkHiddenEmptiesSlot : Prop :=
  ∀ (slot : SlotNo) (s : State),
    let c := Tab.get s.objc slot
    (c.texW = 0 → exec (.markHidden slot) s = .next s) ∧
    (c.texW ≠ 0 → ∃ t, exec (.markHidden slot) s = .next t ∧
      t = { s with colset := t.colset, rowset := t.rowset, objc := t.objc } ∧
      (∀ (o : SlotNo) (x : Nat) (h : x < 240), bitOf t.colset[x] o = true ↔
        bitOf s.colset[x] o = true ∧ ¬(o = slot ∧ c.clipX0 ≤ x ∧ x < c.clipX1)) ∧
      (∀ (o : SlotNo) (y : Nat) (h : y < 160), bitOf t.rowset[y] o = true ↔
        bitOf s.rowset[y] o = true ∧ ¬(o = slot ∧ c.clipY0 ≤ y ∧ y < c.clipY1)) ∧
      (∀ o, Tab.get t.objc o = if o = slot then { c with texW := 0, texH := 0 } else Tab.get s.objc o) ∧
      (VisibilityInv s → (∀ (x : Nat) (h : x < 240), bitOf t.colset[x] slot = false) ∧
        ∀ (y : Nat) (h : y < 160), bitOf t.rowset[y] slot = false) ∧
      exec (.markHidden slot) t = .next t)

/-- Hiding a slot takes back exactly what drawing it put in, whatever the host stores into `OAM` and `REG` in between
(R142, R145, R149): the sets are the old ones. The premise is the invariant of R41. -/
def Obligations.HideUndoesDraw : Prop :=
  ∀ (slot : SlotNo) (s t : State) (h : HostMem), VisibilityInv s → (Tab.get s.objc slot).texW = 0 →
    exec (.markDrawn slot) s = .next t →
    ∃ u, exec (.markHidden slot) { t with host := h } = .next u ∧ u.colset = s.colset ∧ u.rowset = s.rowset ∧
      (Tab.get u.objc slot).texW = 0

/-- R147: `QUERY` loads the intersection of the column set and the row set, empty off the screen; `QRES` and everything
else stay. With the invariant of R41 the members are the drawn slots whose clipped rectangle holds the point. -/
def Obligations.QueryLoadsIntersection : Prop :=
  ∀ (x y : BitVec 8) (s : State), ∃ t, exec (.query x y) s = .next t ∧ t = { s with qset := t.qset } ∧
    (∀ o : SlotNo, bitOf t.qset o = true ↔ Covers s x.toNat y.toNat o) ∧
    (VisibilityInv s → ∀ o : SlotNo, bitOf t.qset o = true ↔
      x.toNat < 240 ∧ y.toNat < 160 ∧ (Tab.get s.objc o).texW ≠ 0 ∧
      (Tab.get s.objc o).clipX0 ≤ x.toNat ∧ x.toNat < (Tab.get s.objc o).clipX1 ∧
      (Tab.get s.objc o).clipY0 ≤ y.toNat ∧ y.toNat < (Tab.get s.objc o).clipY1)

/-- R148: `QPOP` removes the lowest-numbered member and reports it; of an empty set it reports `valid = 0`. -/
def Obligations.QpopRemovesLowest : Prop :=
  ∀ s : State, ∃ t, exec .qpop s = .next t ∧ t = { s with qset := t.qset, qres := t.qres } ∧
    (s.qset = 0 → t.qset = 0 ∧ t.qres = { valid := false, slot := 0 }) ∧
    (s.qset ≠ 0 → t.qres.valid = true ∧ bitOf s.qset t.qres.slot = true ∧
      (∀ o, bitOf s.qset o = true → t.qres.slot ≤ o) ∧
      ∀ o, bitOf t.qset o = true ↔ bitOf s.qset o = true ∧ o ≠ t.qres.slot)

/-- R107, `QDRAIN`: at most 129 pops empty the set, and the slots popped are its members in ascending order. -/
def Obligations.QdrainVisitsMembersInOrder : Prop :=
  ∀ s : State, (qdrain s).2 = allSlots.filter (bitOf s.qset) ∧
    (qdrain s).1 = { s with qset := 0, qres := { valid := false, slot := 0 } }

/-! ### The sprite pixel sampler -/

/-- R160, R166, R167: who wins. `objwin` is set iff an opaque texel of object-window mode covers the point; a colour is
found iff there is a drawable match; the winner is the match of least priority, the lowest slot among equals, and gives
its priority, its semi-transparency and its palette colour. `QSET` is left empty and nothing else changes. -/
def Obligations.SmpObjWinner : Prop :=
  ∀ (x y : BitVec 8) (s : State), ∃ t, exec (.smpObj x y) s = .next t ∧
    t = { s with ores := t.ores, qset := 0 } ∧
    (t.ores.objwin = true ↔
      ∃ o idx, OpaqueAt s x.toNat y.toNat o idx ∧ (Tab.get s.host.oam o).gfxMode = 2) ∧
    (t.ores.found = true ↔ ∃ o idx, DrawableAt s x.toNat y.toNat o idx) ∧
    (t.ores.found = false → t.ores.color = 0 ∧ t.ores.prio = 0 ∧ t.ores.semi = false) ∧
    (∀ o idx, DrawableAt s x.toNat y.toNat o idx →
      (∀ o' idx', DrawableAt s x.toNat y.toNat o' idx' → Beats s o o') →
      t.ores.prio = (Tab.get s.host.oam o).priority ∧
      (t.ores.semi = true ↔ (Tab.get s.host.oam o).gfxMode = 1) ∧
      t.ores.color = if (Tab.get s.host.oam o).color8 then palColor s.host.pal 1 idx
        else palColor s.host.pal 1 (16 * (Tab.get s.host.oam o).palette.toNat + idx))

/-- R163, R164, R165, R88: the colour index of a candidate, with the shifts and masks of the pseudocode: texture
coordinates by the affine group or by the origin and the flips, snapped if the sprite has mosaic, then the tile unit, the
byte of the texel, confined to sprite tile memory, and at 4-bit depth its nibble, the low one for the even column. -/
def Obligations.ObjTexelAddress : Prop :=
  ∀ (h : HostMem) (a : ObjAttr) (c : ObjCache) (x y : Nat),
    let g := Tab.get h.objAff a.affGroup
    let dx := (x : Int) - c.cx
    let dy := (y : Int) - c.cy
    let inside (tx ty : Int) : Prop := 0 ≤ tx ∧ tx < c.texW ∧ 0 ≤ ty ∧ ty < c.texH
    let texel (tx ty : Nat) : Option Nat :=
      let unit := if h.reg.dispcnt.obj1d
        then a.tile.toNat + ((ty >>> 3) * (c.texW >>> 3) + (tx >>> 3)) * (if a.color8 then 2 else 1)
        else a.tile.toNat + (ty >>> 3) * 32 + (tx >>> 3) * (if a.color8 then 2 else 1)
      let base := 0x10000 + unit * 32
      let addr := if a.color8 then base + (ty &&& 7) * 8 + (tx &&& 7) else base + (ty &&& 7) * 4 + ((tx &&& 7) >>> 1)
      let b := (Memory.read h.vram addr).toNat
      if (h.reg.dispcnt.mode = 3 ∨ h.reg.dispcnt.mode = 4 ∨ h.reg.dispcnt.mode = 5) ∧ a.tile.toNat < 512 then none
      else if 1024 ≤ unit ∨ addr < 0x10000 ∨ 0x18000 ≤ addr then none
      else some (if a.color8 then b else if tx &&& 1 = 1 then b / 16 else b % 16)
    let snapped (tx ty : Int) : Option Nat :=
      if a.mosaic then texel (tx - tx % (h.reg.mosaic.objH.toNat + 1)).toNat (ty - ty % (h.reg.mosaic.objV.toNat + 1)).toNat
      else texel tx.toNat ty.toNat
    (a.affine = true →
      let tx := ((g.pa.toInt * dx + g.pb.toInt * dy) >>> (8 : Nat)) + (c.texW >>> 1 : Nat)
      let ty := ((g.pc.toInt * dx + g.pd.toInt * dy) >>> (8 : Nat)) + (c.texH >>> 1 : Nat)
      (inside tx ty → objIndex h a c x y = snapped tx ty) ∧ (¬inside tx ty → objIndex h a c x y = none)) ∧
    (a.affine = false →
      let tx := (x : Int) - c.rectX
      let ty := (y : Int) - c.rectY
      let fx := if a.hflip then c.texW - 1 - tx else tx
      let fy := if a.vflip then c.texH - 1 - ty else ty
      (inside tx ty → objIndex h a c x y = snapped fx fy) ∧ (¬inside tx ty → objIndex h a c x y = none))

/-- R161: what the sampler reads, and that it reads nothing else. Two states give one `ORES` if they agree on the column
set and the row set of the point, on the affine groups, the object mosaic, the sprite addressing and the mode, on sprite
tile memory and the object palette, and for each candidate slot on the six fields of the cache and on the live fields of
`OAM`: position, shape, size and double-size of `OAM`, the other sets, the other slots and the clipped bounds, background
memory and the rest of `REG` do not enter. -/
def Obligations.SmpObjReadsOnlyItsInputs : Prop :=
  ∀ (x y : BitVec 8) (s s' : State),
    (∀ h : x.toNat < 240, s.colset[x.toNat] = s'.colset[x.toNat]) →
    (∀ h : y.toNat < 160, s.rowset[y.toNat] = s'.rowset[y.toNat]) → s.host.objAff = s'.host.objAff →
    s.host.reg.mosaic.objH = s'.host.reg.mosaic.objH → s.host.reg.mosaic.objV = s'.host.reg.mosaic.objV →
    s.host.reg.dispcnt.obj1d = s'.host.reg.dispcnt.obj1d → s.host.reg.dispcnt.mode = s'.host.reg.dispcnt.mode →
    (∀ a, 0x10000 ≤ a → a < 0x18000 → Memory.read s.host.vram a = Memory.read s'.host.vram a) →
    (∀ a, 0x200 ≤ a → a < 0x400 → Memory.read s.host.pal a = Memory.read s'.host.pal a) →
    (∀ n : SlotNo, Covers s x.toNat y.toNat n →
      (∃ rw rh x0 x1 y0 y1, Tab.get s'.objc n = { Tab.get s.objc n with
        rectW := rw, rectH := rh, clipX0 := x0, clipX1 := x1, clipY0 := y0, clipY1 := y1 }) ∧
      ∃ yy xx ds sh sz, Tab.get s'.host.oam n =
        { Tab.get s.host.oam n with y := yy, x := xx, doubleSize := ds, shape := sh, size := sz }) →
    ∃ t t', exec (.smpObj x y) s = .next t ∧ exec (.smpObj x y) s' = .next t' ∧ t.ores = t'.ores

/-- The identity matrix (`pa = pd = 1.0`, `pb = pc = 0`) on a sprite of single size samples every point as the unflipped
non-affine sprite does (R163), on the geometry that `MARK_DRAWN` caches (R142). -/
def Obligations.IdentityAffineIsPlain : Prop :=
  ∀ (h : HostMem) (a : ObjAttr) (x y : Nat),
    a.affine = true → a.doubleSize = false → a.hflip = false → a.vflip = false →
    Tab.get h.objAff a.affGroup = { pa := 0x0100, pb := 0, pc := 0, pd := 0x0100 } →
    objIndex h a (geometry a) x y = objIndex h { a with affine := false } (geometry a) x y

/-- R164: `MosaicSnap` is the largest multiple of the step that is not above the coordinate; it never leaves the texture
of a coordinate in `[0, n)`; granularity 0 changes nothing. -/
def Obligations.MosaicSnapsDown : Prop :=
  ∀ (v : Int) (g : BitVec 4),
    let r := mosaicSnap cfg v g
    ((g.toNat : Int) + 1) ∣ r ∧ r ≤ v ∧ v < r + (g.toNat + 1) ∧ (0 ≤ v → 0 ≤ r) ∧ (g = 0 → r = v)

/-- R113, R114: the size tables, cell by cell; and R71, R89: a palette colour is the low 15 bits of the little-endian entry
of its bank. -/
def Obligations.SizeTablesAndPaletteEntries : Prop :=
  (List.map (fun sh => List.map (objDim sh) [0, 1, 2, 3]) [0, 1, 2, 3] =
    [[(8, 8), (16, 16), (32, 32), (64, 64)], [(16, 8), (32, 8), (32, 16), (64, 32)],
     [(8, 16), (8, 32), (16, 32), (32, 64)], [(0, 0), (0, 0), (0, 0), (0, 0)]]) ∧
  (List.map tileBgDim [0, 1, 2, 3] = [(256, 256), (512, 256), (256, 512), (512, 512)]) ∧
  (List.map affBgDim [0, 1, 2, 3] = [128, 256, 512, 1024]) ∧
  (∀ bx by' : Nat, List.map (fun sz => tileBgBlock sz bx by') [0, 1, 2, 3] = [0, bx, by', 2 * by' + bx]) ∧
  (∀ (pal : Memory 8) (bank i : Nat),
    let a := bank * 0x200 + 2 * i
    (palColor pal bank i).toNat = ((Memory.read pal a).toNat + 256 * (Memory.read pal (a + 1)).toNat) % 2 ^ 15)

/-! ### The background samplers -/

/-- R180, R181, R183, R184, R88 with the masks and shifts of the pseudocode: the map coordinates, the entry, the byte of the
texel and its nibble, the colour, `BRES` written and nothing else. -/
def Obligations.SmpTileResult : Prop :=
  ∀ (n : BitVec 2) (x y : BitVec 8) (s : State),
    let c := Tab.get s.host.reg.bgcnt n
    let W := (tileBgDim c.size).1
    let H := (tileBgDim c.size).2
    let snap (v : Nat) (g : BitVec 4) : Nat := if c.mosaic then v - v % (g.toNat + 1) else v
    let mx := snap ((x.toNat + (Tab.get s.host.reg.bgHofs n).toNat) &&& (W - 1)) s.host.reg.mosaic.bgH
    let my := snap ((y.toNat + (Tab.get s.host.reg.bgVofs n).toNat) &&& (H - 1)) s.host.reg.mosaic.bgV
    let ea := c.screenBase.toNat * 0x800 + tileBgBlock c.size (mx >>> 8) (my >>> 8) * 0x800 +
      (((my &&& 255) >>> 3) * 32 + ((mx &&& 255) >>> 3)) * 2
    let e := Memory.readHalf s.host.vram ea
    let px := if e.getLsbD 10 then 7 - (mx &&& 7) else mx &&& 7
    let py := if e.getLsbD 11 then 7 - (my &&& 7) else my &&& 7
    let base := c.charBase.toNat * 0x4000 + (e.toNat % 1024) * (if c.color8 then 64 else 32)
    let addr := if c.color8 then base + py * 8 + px else base + py * 4 + (px >>> 1)
    let b := (Memory.read s.host.vram addr).toNat
    let k := if c.color8 then b else if px &&& 1 = 1 then b / 16 else b % 16
    ∃ t, exec (.smpTile n x y) s = .next t ∧ t = { s with bres := t.bres } ∧ ea % 2 = 0 ∧
      (t.bres.valid = true ↔ ea < 0x10000 ∧ addr < 0x10000 ∧ k ≠ 0) ∧ (t.bres.valid = false → t.bres.color = 0) ∧
      (t.bres.valid = true →
        t.bres.color = palColor s.host.pal 0 (if c.color8 then k else 16 * (e.toNat / 4096) + k))

/-- R188, R189, R190: the affine sampler at the background's accumulator. Wrapping is the mask of the two's complement
coordinate with `D - 1`; without it a coordinate outside `[0, D)` is transparent. -/
def Obligations.SmpAffResult : Prop :=
  ∀ (k : BitVec 1) (s : State),
    let c := Tab.get s.host.reg.bgcnt (2 + k.setWidth 2)
    let D := affBgDim c.size
    let snap (v : Int) (g : BitVec 4) : Int := if c.mosaic then v - v % (g.toNat + 1) else v
    let ix := snap ((Tab.get s.acc k).x.toInt >>> (8 : Nat)) s.host.reg.mosaic.bgH
    let iy := snap ((Tab.get s.acc k).y.toInt >>> (8 : Nat)) s.host.reg.mosaic.bgV
    let wrapped (v : Int) : Nat := if c.wrap then (BitVec.ofInt 32 v &&& BitVec.ofNat 32 (D - 1)).toNat else v.toNat
    let jx := wrapped ix
    let jy := wrapped iy
    let inside := c.wrap = true ∨ (0 ≤ ix ∧ ix < D ∧ 0 ≤ iy ∧ iy < D)
    let ea := c.screenBase.toNat * 0x800 + (jy >>> 3) * (D >>> 3) + (jx >>> 3)
    let texel := c.charBase.toNat * 0x4000 + (Memory.read s.host.vram ea).toNat * 64 + (jy &&& 7) * 8 + (jx &&& 7)
    let idx := (Memory.read s.host.vram texel).toNat
    ∃ t, exec (.smpAff k) s = .next t ∧ t = { s with bres := t.bres } ∧
      (t.bres.valid = true ↔ inside ∧ ea < 0x10000 ∧ texel < 0x10000 ∧ idx ≠ 0) ∧
      (t.bres.valid = false → t.bres.color = 0) ∧ (t.bres.valid = true → t.bres.color = palColor s.host.pal 0 idx)

/-- R195, R196, R197, R198: the bitmap samplers, byte by byte of the frame; page 1 is 0xA000 up; a direct colour of 0 is
opaque; index 0 of mode 4 is transparent; outside the frame there is no colour. -/
def Obligations.SmpBitmapResults : Prop :=
  ∀ (x y : BitVec 8) (s : State),
    let b (a : Nat) : Nat := (Memory.read s.host.vram a).toNat
    let page := if s.host.reg.dispcnt.page then 0xA000 else 0
    (∃ t, exec (.smpBmp3 x y) s = .next t ∧ t = { s with bres := t.bres } ∧
      (t.bres.valid = true ↔ x.toNat < 240 ∧ y.toNat < 160) ∧ (t.bres.valid = false → t.bres.color = 0) ∧
      (t.bres.valid = true → let a := (y.toNat * 240 + x.toNat) * 2
        t.bres.color.toNat = (b a + 256 * b (a + 1)) % 2 ^ 15)) ∧
    (∃ t, exec (.smpBmp4 x y) s = .next t ∧ t = { s with bres := t.bres } ∧
      (t.bres.valid = true ↔ x.toNat < 240 ∧ y.toNat < 160 ∧ b (page + y.toNat * 240 + x.toNat) ≠ 0) ∧
      (t.bres.valid = false → t.bres.color = 0) ∧
      (t.bres.valid = true → t.bres.color = palColor s.host.pal 0 (b (page + y.toNat * 240 + x.toNat)))) ∧
    (∃ t, exec (.smpBmp5 x y) s = .next t ∧ t = { s with bres := t.bres } ∧
      (t.bres.valid = true ↔ x.toNat < 160 ∧ y.toNat < 128) ∧ (t.bres.valid = false → t.bres.color = 0) ∧
      (t.bres.valid = true → let a := page + (y.toNat * 160 + x.toNat) * 2
        t.bres.color.toNat = (b a + 256 * b (a + 1)) % 2 ^ 15))

/-- R77, R88: a background sampler reads no byte of `VRAM` from 0x10000 up and no byte of the object palette, but for the
bitmap modes, whose frames reach to 0x13FFF: whatever stands there, the sample is the same. -/
def Obligations.BgSamplersReadOnlyTheirRegion : Prop :=
  ∀ (h h' : HostMem) (n : BitVec 2) (x y : Nat) (fx fy : Int), h.reg = h'.reg →
    (∀ a < 0x200, Memory.read h.pal a = Memory.read h'.pal a) →
    ((∀ a < 0x10000, Memory.read h.vram a = Memory.read h'.vram a) →
      sampleTile h n x y = sampleTile h' n x y ∧ sampleAffine h n fx fy = sampleAffine h' n fx fy) ∧
    ((∀ a < 0x14000, Memory.read h.vram a = Memory.read h'.vram a) →
      sampleBitmap3 h x y = sampleBitmap3 h' x y ∧ sampleBitmap4 h x y = sampleBitmap4 h' x y ∧
      sampleBitmap5 h x y = sampleBitmap5 h' x y)

/-! ### The window / mask evaluator -/

/-- R210, R211, R212, R213: the first window that contains the point gives the mask; with no window enabled everything is
enabled; a point outside all windows takes the outside mask. With the parameter `WINDOW_STUB` set the evaluator would
enable everything, whatever the registers hold. -/
def Obligations.WinEvalFirstMatch : Prop :=
  ∀ (x y : BitVec 8) (ow : Bool) (s : State),
    let r := s.host.reg
    let en (w : BitVec 1) : Prop := bitOf r.dispcnt.winEnable w = true
    let inside (w : BitVec 1) : Prop := en w ∧ (Tab.get r.win w).left ≤ x ∧ x < (Tab.get r.win w).right ∧
      (Tab.get r.win w).top ≤ y ∧ y < (Tab.get r.win w).bottom
    let inObj : Prop := r.dispcnt.objwinEnable = true ∧ ow = true
    let any : Prop := en 0#1 ∨ en 1#1 ∨ r.dispcnt.objwinEnable = true
    ∃ t, exec (.winEval x y ow) s = .next t ∧ t = { s with wres := t.wres } ∧
      (¬any → t.wres = { bg := 0b1111, obj := true, blend := true }) ∧
      (inside 0#1 → t.wres = Tab.get r.winin 0#1) ∧
      (¬inside 0#1 → inside 1#1 → t.wres = Tab.get r.winin 1#1) ∧
      (¬inside 0#1 → ¬inside 1#1 → inObj → t.wres = r.winobj) ∧
      (any → ¬inside 0#1 → ¬inside 1#1 → ¬inObj → t.wres = r.winout) ∧
      windowEval { cfg with windowStub := true } r x.toNat y.toNat ow = { bg := 0b1111, obj := true, blend := true }

/-! ### The priority and blend engine -/

/-- R222, R223, R221: `BLD_RESET` is legal in every state and unsets both slots; `BLD_OBJ` from `Reset` puts the object in
slot 0 with its target flags as the register has them now. -/
def Obligations.BldResetAndObject : Prop :=
  ∀ s : State,
    (∃ t, exec .bldReset s = .next t ∧ t = { s with bu := t.bu } ∧ t.bu.state = .reset ∧
      t.bu.slot0 = { color := 0, prio := 7, tgtA := false, tgtB := false, blendedObj := false, layer := 7 } ∧
      t.bu.slot1 = t.bu.slot0) ∧
    (∀ (color : Colour) (prio : BitVec 3) (semi : Bool), s.bu.state = .reset → prio ≤ 3 →
      ∃ t, exec (.bldObj color prio semi) s = .next t ∧ t = { s with bu := t.bu } ∧ t.bu.state = .objectAdded ∧
        t.bu.slot1 = s.bu.slot1 ∧
        t.bu.slot0 = { color := color, prio := prio, tgtA := s.host.reg.bldcnt.targetA.getLsbD 4,
                       tgtB := s.host.reg.bldcnt.targetB.getLsbD 4, blendedObj := semi, layer := 4 })

/-- R224 to R228, R233, R234: `BLD_BGn` in a state that allows it. A layer of smaller priority than slot 0's demotes slot
0, every field of it, to slot 1; else one of smaller priority than slot 1's takes slot 1; else it is discarded; the state
is that of background `n` in each case. -/
def Obligations.BldBackgroundTakesSlot : Prop :=
  ∀ (color : Colour) (prio : BitVec 3) (s : State) (n : BitVec 2) (i : Instr) (after : BuState),
    (n = 0 ∧ i = .bldBg0 color prio ∧ after = .bg0Added) ∨ (n = 1 ∧ i = .bldBg1 color prio ∧ after = .bg1Added) ∨
      (n = 2 ∧ i = .bldBg2 color prio ∧ after = .bg2Added) ∨ (n = 3 ∧ i = .bldBg3 color prio ∧ after = .bg3Added) →
    prio ≤ 3 → LegalIn s.bu.state i →
    let l : Layer := { color := color, prio := prio, tgtA := s.host.reg.bldcnt.targetA.getLsbD n.toNat,
                       tgtB := s.host.reg.bldcnt.targetB.getLsbD n.toNat, blendedObj := false, layer := n.setWidth 3 }
    ∃ t, exec i s = .next t ∧ t = { s with bu := t.bu } ∧ t.bu.state = after ∧
      (prio < s.bu.slot0.prio → t.bu.slot0 = l ∧ t.bu.slot1 = s.bu.slot0) ∧
      (s.bu.slot0.prio ≤ prio → prio < s.bu.slot1.prio → t.bu.slot0 = s.bu.slot0 ∧ t.bu.slot1 = l) ∧
      (s.bu.slot0.prio ≤ prio → s.bu.slot1.prio ≤ prio → t.bu.slot0 = s.bu.slot0 ∧ t.bu.slot1 = s.bu.slot1)

/-- R229: `BLD_BACKDROP` fills whichever slot is still unset, slot 0 first, and is discarded when both are set. -/
def Obligations.BldBackdropFillsUnsetSlot : Prop :=
  ∀ (color : Colour) (s : State), s.bu.state ≠ .backdropAdded → s.bu.state ≠ .composited →
    let l : Layer := { color := color, prio := 4, tgtA := s.host.reg.bldcnt.targetA.getLsbD 5,
                       tgtB := s.host.reg.bldcnt.targetB.getLsbD 5, blendedObj := false, layer := 5 }
    ∃ t, exec (.bldBackdrop color) s = .next t ∧ t = { s with bu := t.bu } ∧ t.bu.state = .backdropAdded ∧
      (s.bu.slot0.prio = 7 → t.bu.slot0 = l ∧ t.bu.slot1 = s.bu.slot1) ∧
      (s.bu.slot0.prio ≠ 7 → s.bu.slot1.prio = 7 → t.bu.slot0 = s.bu.slot0 ∧ t.bu.slot1 = l) ∧
      (s.bu.slot0.prio ≠ 7 → s.bu.slot1.prio ≠ 7 → t.bu.slot0 = s.bu.slot0 ∧ t.bu.slot1 = s.bu.slot1)

/-- R230, R231, R232: what `BLD_COMPOSITE` computes, channel by channel over the rationals and rounded half up once, with
the weights clamped to 16: no blend, forced or selected alpha, brighten, darken. -/
def Obligations.BldCompositeResult : Prop :=
  ∀ (en : Bool) (s : State), s.bu.state = .backdropAdded →
    let r := s.host.reg
    let top := s.bu.slot0
    let bot := s.bu.slot1
    let w (v : BitVec 5) : ℚ := if v ≤ 16 then v.toNat else 16
    let pair : Prop := top.tgtA = true ∧ bot.tgtB = true
    let forced : Prop := (top.blendedObj = true ∨ bot.blendedObj = true) ∧ pair
    let isAlpha : Prop := en = true ∧ (forced ∨ (r.bldcnt.mode = 1 ∧ pair))
    let isBright : Prop := en = true ∧ ¬forced ∧ r.bldcnt.mode = 2 ∧ top.tgtA = true
    let isDark : Prop := en = true ∧ ¬forced ∧ r.bldcnt.mode = 3 ∧ top.tgtA = true
    ∃ t, exec (.bldComposite en) s = .next t ∧ t = { s with cres := t.cres, bu := { s.bu with state := .composited } } ∧
      t.cres.getLsbD 15 = false ∧
      (∀ i, i < 3 →
        let o := (t.cres.toNat / 2 ^ (5 * i)) % 32
        let a : ℚ := channel top.color i
        let b : ℚ := channel bot.color i
        (isAlpha → ∃ q, RoundsHalfUp q (a * w r.eva / 16 + b * w r.evb / 16) ∧ o = min 31 q) ∧
        (isBright → RoundsHalfUp o (a + (31 - a) * w r.evy / 16)) ∧
        (isDark → RoundsHalfUp o (a * (16 - w r.evy) / 16)) ∧
        (¬isAlpha → ¬isBright → ¬isDark → o = channel top.color i))

/-- The identity law, which spec/44_priority_blend_engine.md derives from R229, R230 and R231 ("identity weights preserve
color"): a lone backdrop composites to its own colour under every mode, when a brighten or darken has
weight 0; and the identity weights preserve every colour. -/
def Obligations.IdentityWeightsPreserveColour : Prop :=
  (∀ (color : Colour) (en : Bool) (s : State), (s.host.reg.bldcnt.mode = 2 ∨ s.host.reg.bldcnt.mode = 3 →
      s.host.reg.evy = 0) →
    ∃ t, execAll [.bldReset, .bldBackdrop color, .bldComposite en] s = .next t ∧ t.cres = color.setWidth 16) ∧
  (∀ top bottom : Colour, brighten cfg 0 top = top ∧ darken cfg 0 top = top ∧ alpha cfg 16 0 top bottom = top)

/-- R220, R224, R233: after a legal sequence of adds from `BLD_RESET` the two slots are the first two layers of the
sequence sorted by priority with ties kept in order of addition. -/
def Obligations.SlotsAreTopTwoLayers : Prop :=
  ∀ (obj : Option (Sample × Bool)) (bg : BitVec 2 → Option Sample) (s : State),
    let sorted := (addedLayers s.host.reg.bldcnt obj bg).insertionSort fun a b => a.prio ≤ b.prio
    ∃ t, execAll (addCommands obj bg) s = .next t ∧ t = { s with bu := t.bu } ∧
      t.bu.slot0 = sorted.getD 0 Layer.unset ∧ t.bu.slot1 = sorted.getD 1 Layer.unset

/-- What spec/46_row_compositor.md derives from R224 ("The only skip that cannot change a pixel is of a background whose
priority is not less than `BU.slot[1].prio`"). With the invariant of the blend unit, adding a background leaves both slots
alone iff it has such a priority. Such a background can be skipped: whatever backgrounds of greater number follow, and
whatever the backdrop, the composited pixel, and the whole state with it, is the same without it. -/
def Obligations.PrioritySkip : Prop :=
  ∀ (n : BitVec 2) (c : Sample) (s : State), BlendInv s → LegalIn s.bu.state (addCommand n c) →
    (∃ t, exec (addCommand n c) s = .next t ∧
      ((t.bu.slot0 = s.bu.slot0 ∧ t.bu.slot1 = s.bu.slot1) ↔ s.bu.slot1.prio ≤ c.prio.setWidth 3)) ∧
    ∀ (later : List (BitVec 2 × Sample)) (backdrop : Colour) (en : Bool), s.bu.slot1.prio ≤ c.prio.setWidth 3 →
      (n :: later.map (·.1)).Pairwise (· < ·) →
      let rest := later.map (fun b => addCommand b.1 b.2) ++ [.bldBackdrop backdrop, .bldComposite en]
      ∃ u, execAll (addCommand n c :: rest) s = .next u ∧ execAll rest s = .next u ∧ u.bu.state = .composited

/-! ### The row compositor -/

/-- R270, R271: `ACC_SEED` loads the sign-extended reference points; `ACC_STEP` adds `(pa, pc)`, wrapping modulo 2^32. Both
groups, whatever the mode. -/
def Obligations.AccumulatorCommands : Prop :=
  ∀ s : State,
    (∃ t, exec .accSeed s = .next t ∧ t = { s with acc := t.acc } ∧ ∀ k : BitVec 1,
      (Tab.get t.acc k).x.toInt = (Tab.get s.host.reg.aff k).x.toInt ∧
      (Tab.get t.acc k).y.toInt = (Tab.get s.host.reg.aff k).y.toInt) ∧
    (∃ t, exec .accStep s = .next t ∧ t = { s with acc := t.acc } ∧ ∀ k : BitVec 1,
      (Tab.get t.acc k).x.toInt =
        ((Tab.get s.acc k).x.toInt + (Tab.get s.host.reg.aff k).pa.toInt).bmod (2 ^ 32) ∧
      (Tab.get t.acc k).y.toInt =
        ((Tab.get s.acc k).y.toInt + (Tab.get s.host.reg.aff k).pc.toInt).bmod (2 ^ 32))

/-- R276, a forced-blank row: its 240 cells become 0, every other cell of `OUT` and everything else, `ACC` too, stays. The
premise on `OUT` is the invariant of its memory. -/
def Obligations.BlankRow : Prop :=
  ∀ (y : BitVec 8) (s : State), y.toNat < 160 → s.host.reg.dispcnt.mode ≤ 5 →
    s.host.reg.dispcnt.forcedBlank = true → Memory.wf s.out →
    ∃ t, exec (.renderRow y) s = .next t ∧ t = { s with out := t.out } ∧
      ∀ r c, r < 160 → c < 240 → outCell t r c = if r = y.toNat then 0 else outCell s r c

/-- R276, a row that is rendered: what it writes and what it leaves. `QSET` is left empty, the blend unit `Composited`,
`ACC` at the seed plus 240 column deltas, every cell of another row as it was, bit 15 of every cell of the row 0; `QRES`,
`FRES`, `SNAP`, `DIRTY`, the sets, the cache and `FAULT` are not changed. -/
def Obligations.RenderRowWrites : Prop :=
  ∀ (y : BitVec 8) (s : State), y.toNat < 160 → s.host.reg.dispcnt.mode ≤ 5 →
    s.host.reg.dispcnt.forcedBlank = false → Memory.wf s.out →
    ∃ t, exec (.renderRow y) s = .next t ∧
      t = { s with qset := 0, ores := t.ores, wres := t.wres, bres := t.bres, cres := t.cres, bu := t.bu, acc := t.acc,
                   out := t.out } ∧
      t.bu.state = .composited ∧
      (∀ k : BitVec 1,
        (Tab.get t.acc k).x.toInt =
          ((Tab.get s.host.reg.aff k).x.toInt + 240 * (Tab.get s.host.reg.aff k).pa.toInt).bmod (2 ^ 32) ∧
        (Tab.get t.acc k).y.toInt =
          ((Tab.get s.host.reg.aff k).y.toInt + 240 * (Tab.get s.host.reg.aff k).pc.toInt).bmod (2 ^ 32)) ∧
      (∀ r c, r < 160 → c < 240 → r ≠ y.toNat → outCell t r c = outCell s r c) ∧
      (∀ c, c < 240 → (outCell t y.toNat c).getLsbD 15 = false) ∧ t.cres = outCell t y.toNat 239

/-- The equivalence that spec/46_row_compositor.md derives from R275 and R276 ("the final state is exactly the state reached
by issuing `ACC_SEED`" and the commands of every pixel): a row that is rendered ends in exactly the state that the host reaches by issuing `ACC_SEED` and the commands of
every pixel itself, reading `ORES`, `WRES`, `BRES` between them and copying `CRES` into `OUT`. The sampler command of each
background in each mode is that of the table of R272. -/
def Obligations.RenderRowIsItsCommands : Prop :=
  (∀ (y : BitVec 8) (s : State), y.toNat < 160 → s.host.reg.dispcnt.mode ≤ 5 →
    s.host.reg.dispcnt.forcedBlank = false → exec (.renderRow y) s = hostRow y s) ∧
  ∀ x y : BitVec 8, [0, 1, 2, 3, 4, 5].map (fun m => [0, 1, 2, 3].map fun n => sampleCommand m n x y) =
    [[some (.smpTile 0 x y), some (.smpTile 1 x y), some (.smpTile 2 x y), some (.smpTile 3 x y)],
     [some (.smpTile 0 x y), some (.smpTile 1 x y), some (.smpAff 0), none],
     [none, none, some (.smpAff 0), some (.smpAff 1)],
     [none, none, some (.smpBmp3 x y), none], [none, none, some (.smpBmp4 x y), none],
     [none, none, some (.smpBmp5 x y), none]]

/-- A row depends on host-owned state and the visibility index alone: two states that agree on these render the same
row, whatever the result registers, the blend unit, the accumulators, the tracker, the faults and `OUT` hold. -/
def Obligations.RowDependsOnInputsOnly : Prop :=
  ∀ (y : BitVec 8) (s s' : State), y.toNat < 160 → s.host.reg.dispcnt.mode ≤ 5 → Memory.wf s.out → Memory.wf s'.out →
    s.host = s'.host → s.colset = s'.colset → s.rowset = s'.rowset → s.objc = s'.objc →
    ∃ t t', exec (.renderRow y) s = .next t ∧ exec (.renderRow y) s' = .next t' ∧
      ∀ c, c < 240 → outCell t y.toNat c = outCell t' y.toNat c

/-- R276 corner case (f): rows are independent. Two rows rendered in either order give the same `OUT`, and a row rendered
twice is as rendered once. -/
def Obligations.RowsInAnyOrder : Prop :=
  ∀ (y z : BitVec 8) (s : State), y.toNat < 160 → z.toNat < 160 → s.host.reg.dispcnt.mode ≤ 5 → MemoryInv s →
    ∃ t u, execAll [.renderRow y, .renderRow z] s = .next t ∧ execAll [.renderRow z, .renderRow y] s = .next u ∧
      (∀ r c, r < 160 → c < 240 → outCell t r c = outCell u r c) ∧
      (y = z → ∃ v, exec (.renderRow y) s = .next v ∧ ∀ r c, r < 160 → c < 240 → outCell t r c = outCell v r c)

/-- R107, R324: `RENDER_FRAME` makes every cell of every row what `RENDER_ROW` of that row makes it, from one state. -/
def Obligations.RenderFrameIsEveryRow : Prop :=
  ∀ s : State, s.host.reg.dispcnt.mode ≤ 5 → MemoryInv s →
    ∃ t, execAll renderFrame s = .next t ∧ ∀ y : BitVec 8, y.toNat < 160 →
      ∃ u, exec (.renderRow y) s = .next u ∧ ∀ c, c < 240 → outCell t y.toNat c = outCell u y.toNat c

/-- R276 corner case (d): with no background enabled and no slot drawn, and the backdrop no brighten or darken target, the
row is the backdrop colour, background-palette entry 0 (R273). -/
def Obligations.BackdropRow : Prop :=
  ∀ (y : BitVec 8) (s : State), y.toNat < 160 → s.host.reg.dispcnt.mode ≤ 5 →
    s.host.reg.dispcnt.forcedBlank = false → Memory.wf s.out → VisibilityInv s →
    s.host.reg.dispcnt.bgEnable = 0 → (∀ n : SlotNo, (Tab.get s.objc n).texW = 0) →
    s.host.reg.bldcnt.targetA.getLsbD 5 = false →
    ∃ t, exec (.renderRow y) s = .next t ∧
      ∀ c, c < 240 → outCell t y.toNat c = (palColor s.host.pal 0 0).setWidth 16

/-! ### The dirty tracker -/

/-- R252, R253: `START_FRAME` overwrites the snapshot with the current registers; `DIRTY` and `FRES` are not changed. -/
def Obligations.StartFrameTakesSnapshot : Prop :=
  ∀ s : State, s.host.reg.dispcnt.mode ≤ 5 →
    ∃ t, exec .startFrame s = .next t ∧ t = { s with snap := t.snap } ∧ IsSnapOf s.host.reg t.snap

/-- R252, R254, R255: the answer, bit by bit and field by field: a relevant dirty bit, another mode than the snapshot's, a
tracked enable, mosaic flag or page that differs, or a granularity that differs while a visible background has mosaic.
Every relevant bit is cleared, every other bit stays, and the snapshot is the current registers. -/
def Obligations.ShouldFlushAnswer : Prop :=
  ∀ s : State, s.host.reg.dispcnt.mode ≤ 5 →
    ∃ t, exec .shouldFlush s = .next t ∧ t = { s with flush := t.flush, dirty := t.dirty, snap := t.snap } ∧
      IsSnapOf s.host.reg t.snap ∧
      (∀ n : Nat, t.dirty.getLsbD n = true ↔ s.dirty.getLsbD n = true ∧ ¬RelevantBit s.host.reg n) ∧
      (t.flush = true ↔
        (∃ n : Nat, s.dirty.getLsbD n = true ∧ RelevantBit s.host.reg n) ∨ t.snap.tag ≠ s.snap.tag ∨
        (∃ n : BitVec 2, bitOf t.snap.en n ≠ bitOf s.snap.en n ∨ bitOf t.snap.mos n ≠ bitOf s.snap.mos n) ∨
        t.snap.page ≠ s.snap.page ∨
        ((∃ n : BitVec 2, bitOf t.snap.en n = true ∧ bitOf t.snap.mos n = true) ∧
          (t.snap.granH ≠ s.snap.granH ∨ t.snap.granV ≠ s.snap.granV)))

/-- R256, R311, R319, R50: a flush signal is not retried: a second `SHOULD_FLUSH` with no store and no dirty bit in between
answers false. From reset the first answer is true. `pal.obj` and `vram.obj` are never cleared. -/
def Obligations.FlushIsNotRetried : Prop :=
  (∀ s : State, s.host.reg.dispcnt.mode ≤ 5 →
    ∃ t u, exec .shouldFlush s = .next t ∧ exec .shouldFlush t = .next u ∧ u.flush = false) ∧
  (∀ (m : LaunchMem) (inbox : List HostTxn), m.host.reg.dispcnt.mode ≤ 5 →
    ∃ t, exec .shouldFlush (State.launch m inbox) = .next t ∧ t.flush = true) ∧
  (∀ (i : Instr) (s t : State), exec i s = .next t →
    t.dirty.getLsbD 10 = s.dirty.getLsbD 10 ∧ t.dirty.getLsbD 20 = s.dirty.getLsbD 20)
end

