-- ==== Sys2Proof/Laws/Memory.lean ====
section
/-! SUPPORT. What the memory operations do: a read after a write, the canonical form, and the laws of fixed-size
tables. -/

namespace Sys2Proof.Machine

variable {w : Nat}

@[simp] theorem Memory.read_nil (a : Nat) : Memory.read ([] : Memory w) a = Memory.unlisted w := rfl

/-- An address that no entry holds reads as the unlisted value. -/
theorem Memory.read_unlisted (m : Memory w) (a : Nat) (h : ∀ c ∈ m, c.1 ≠ a) : Memory.read m a = Memory.unlisted w := by
  induction m with
  | nil => rfl
  | cons c rest ih =>
    have hc : a ≠ c.1 := fun e => h c (by simp) e.symm
    simp only [Memory.read, if_neg hc]
    exact ih fun d hd => h d (by simp [hd])

/-- An address below every entry of a memory reads as the unlisted value. -/
theorem Memory.read_below (m : Memory w) (a : Nat) (h : ∀ c ∈ m, a < c.1) : Memory.read m a = Memory.unlisted w :=
  Memory.read_unlisted m a fun c hc => Nat.ne_of_gt (h c hc)

theorem Memory.wf_cons {c : Nat × BitVec w} {m : Memory w} (h : Memory.wf (c :: m)) :
    Memory.wf m ∧ (∀ d ∈ m, c.1 < d.1) ∧ c.2 ≠ Memory.unlisted w := by
  obtain ⟨hp, hz⟩ := h
  rw [List.pairwise_cons] at hp
  exact ⟨⟨hp.2, fun d hd => hz d (by simp [hd])⟩, hp.1, hz c (by simp)⟩

/-- Put an entry before a canonical memory whose addresses lie above it. -/
theorem Memory.cons_wf {c : Nat × BitVec w} {m : Memory w} (h : Memory.wf m) (hk : ∀ d ∈ m, c.1 < d.1)
    (hc : c.2 ≠ Memory.unlisted w) : Memory.wf (c :: m) := by
  refine ⟨List.pairwise_cons.2 ⟨hk, h.1⟩, fun d hd => ?_⟩
  rcases List.mem_cons.1 hd with rfl | hd
  · exact hc
  · exact h.2 d hd

/-- Every entry after a write is the new one or an old one. -/
theorem Memory.mem_write (m : Memory w) (a : Nat) (v : BitVec w) (c : Nat × BitVec w) (h : c ∈ Memory.write m a v) :
    c = (a, v) ∨ c ∈ m := by
  induction m with
  | nil =>
    rw [Memory.write] at h
    split at h
    · exact .inr h
    · exact .inl (by simpa using h)
  | cons d rest ih =>
    obtain ⟨k, x⟩ := d
    rw [Memory.write] at h
    split at h
    · split at h
      · exact .inr h
      · exact List.mem_cons.1 h
    · split at h
      · split at h
        · exact .inr (List.mem_cons_of_mem _ h)
        · exact (List.mem_cons.1 h).imp id (List.mem_cons_of_mem _)
      · rcases List.mem_cons.1 h with h | h
        · exact .inr (by simp [h])
        · exact (ih h).imp id (List.mem_cons_of_mem _)

/-- A write keeps the canonical form. -/
theorem Memory.write_wf (m : Memory w) (a : Nat) (v : BitVec w) (h : Memory.wf m) : Memory.wf (Memory.write m a v) := by
  induction m with
  | nil =>
    rw [Memory.write]
    split
    · exact h
    · exact Memory.cons_wf h (by simp) (by assumption)
  | cons d rest ih =>
    obtain ⟨k, x⟩ := d
    obtain ⟨hr, hk, hx⟩ := Memory.wf_cons h
    rw [Memory.write]
    split
    · rename_i hak
      split
      · exact h
      · refine Memory.cons_wf h (fun c hc => ?_) (by assumption)
        rcases List.mem_cons.1 hc with rfl | hc
        · exact hak
        · exact Nat.lt_trans hak (hk c hc)
    · split
      · rename_i hak
        subst hak
        split
        · exact hr
        · exact Memory.cons_wf hr hk (by assumption)
      · refine Memory.cons_wf (ih hr) (fun c hc => ?_) hx
        rcases Memory.mem_write rest a v c hc with rfl | hc
        · show k < a
          omega
        · exact hk c hc

/-- A write inside a space stays inside it. -/
theorem Memory.write_wfBelow (size : Nat) (m : Memory w) (a : Nat) (v : BitVec w) (h : Memory.wfBelow size m)
    (ha : a < size) : Memory.wfBelow size (Memory.write m a v) := by
  refine ⟨Memory.write_wf m a v h.1, fun c hc => ?_⟩
  rcases Memory.mem_write m a v c hc with rfl | hc
  · exact ha
  · exact h.2 c hc

/-- A read after a write. -/
theorem Memory.read_write (m : Memory w) (a b : Nat) (v : BitVec w) (h : Memory.wf m) :
    Memory.read (Memory.write m a v) b = if b = a then v else Memory.read m b := by
  induction m with
  | nil =>
    rw [Memory.write]
    by_cases hv : v = Memory.unlisted w
    · simp [hv]
    · rw [if_neg hv]
      rfl
  | cons d rest ih =>
    obtain ⟨k, x⟩ := d
    obtain ⟨hr, hk, -⟩ := Memory.wf_cons h
    have hrest : ∀ c, c ≤ k → Memory.read rest c = Memory.unlisted w :=
      fun c hc => Memory.read_below rest c fun e he => Nat.lt_of_le_of_lt hc (hk e he)
    rw [Memory.write]
    by_cases h1 : a < k
    · rw [if_pos h1]
      by_cases hv : v = Memory.unlisted w
      · rw [if_pos hv]
        by_cases hb : b = a
        · subst hb
          rw [if_pos rfl, Memory.read, if_neg (Nat.ne_of_lt h1), hrest b (Nat.le_of_lt h1), hv]
        · rw [if_neg hb]
      · rw [if_neg hv, Memory.read]
    · rw [if_neg h1]
      by_cases h2 : a = k
      · subst h2
        rw [if_pos rfl]
        by_cases hv : v = Memory.unlisted w
        · rw [if_pos hv]
          by_cases hb : b = a
          · subst hb
            rw [if_pos rfl, hrest b (Nat.le_refl _), hv]
          · rw [if_neg hb, Memory.read, if_neg hb]
        · rw [if_neg hv, Memory.read]
          by_cases hb : b = a
          · rw [if_pos hb, if_pos hb]
          · rw [if_neg hb, if_neg hb, Memory.read, if_neg hb]
      · rw [if_neg h2]
        by_cases hb : b = k
        · subst hb
          rw [Memory.read, if_pos rfl, if_neg (Ne.symm h2), Memory.read, if_pos rfl]
        · rw [Memory.read, if_neg hb, Memory.read, if_neg hb]
          exact ih hr

theorem Memory.canon_wfBelow (size : Nat) (m : Memory w) : Memory.wfBelow size (Memory.canon size m) := by
  induction m with
  | nil => exact ⟨⟨List.Pairwise.nil, by simp [Memory.canon]⟩, by simp [Memory.canon]⟩
  | cons c rest ih =>
    obtain ⟨a, v⟩ := c
    rw [Memory.canon]
    split
    · exact Memory.write_wfBelow size _ a v ih (by assumption)
    · exact ih

/-- The canonical form of a list of contents reads as the list does, inside the space. -/
theorem Memory.read_canon (size : Nat) (m : Memory w) (b : Nat) (hb : b < size) :
    Memory.read (Memory.canon size m) b = Memory.read m b := by
  induction m with
  | nil => rfl
  | cons c rest ih =>
    obtain ⟨a, v⟩ := c
    rw [Memory.canon, Memory.read]
    split
    · rw [Memory.read_write _ a b v (Memory.canon_wfBelow size rest).1, ih]
    · rename_i ha
      rw [if_neg (by omega), ih]

/-- A 2-byte store keeps the canonical form and the space. -/
theorem Memory.writeHalf_wfBelow (size : Nat) (m : Memory 8) (a : Nat) (v : Half) (h : Memory.wfBelow size m)
    (ha : a + 1 < size) : Memory.wfBelow size (Memory.writeHalf m a v) :=
  Memory.write_wfBelow size _ _ _ (Memory.write_wfBelow size m a _ h (Nat.lt_of_succ_lt ha)) ha

/-- A 2-byte read after a 2-byte store at the same address (R72). -/
theorem Memory.readHalf_writeHalf (m : Memory 8) (a : Nat) (v : Half) (h : Memory.wf m) :
    Memory.readHalf (Memory.writeHalf m a v) a = v := by
  have h1 := Memory.write_wf m a (v.extractLsb' 0 8) h
  have hne : a ≠ a + 1 := Nat.ne_of_lt (Nat.lt_succ_self a)
  simp only [Memory.readHalf, Memory.writeHalf, Memory.read_write _ _ _ _ h1, if_neg hne, if_pos,
    Memory.read_write _ _ _ _ h]
  apply BitVec.eq_of_getLsbD_eq
  intro i hi
  rw [BitVec.getLsbD_append]
  by_cases h8 : i < 8
  · simp [h8]
  · have : 8 + (i - 8) = i := by omega
    have h16 : i - 8 < 8 := by omega
    simp [h8, h16, this]

/-! ### Tables -/

variable {α : Type} {n k : Nat}

@[simp] theorem Tab.get_set_self (v : Vector α n) (i : BitVec k) (a : α) (h : 2 ^ k = n) :
    Tab.get (Tab.set v i a h) i h = a := by
  simp [Tab.get, Tab.set]

theorem Tab.get_set_ne (v : Vector α n) (i j : BitVec k) (a : α) (h : 2 ^ k = n) (hij : i ≠ j) :
    Tab.get (Tab.set v i a h) j h = Tab.get v j h := by
  have hne : i.toNat ≠ j.toNat := fun e => hij (BitVec.eq_of_toNat_eq e)
  simp [Tab.get, Tab.set, hne]

theorem Tab.get_set (v : Vector α n) (i j : BitVec k) (a : α) (h : 2 ^ k = n) :
    Tab.get (Tab.set v i a h) j h = if i = j then a else Tab.get v j h := by
  by_cases hij : i = j
  · subst hij
    simp
  · rw [if_neg hij, Tab.get_set_ne v i j a h hij]

theorem Tab.getElem_mapFrom (f : Nat → α → α) (l : List α) : ∀ (i j : Nat) (h : j < (Tab.mapFrom f i l).length),
    (Tab.mapFrom f i l)[j] = f (i + j) (l[j]'(by rwa [Tab.length_mapFrom] at h)) := by
  induction l with
  | nil => intro i j h; simp [Tab.mapFrom] at h
  | cons a rest ih =>
    intro i j h
    cases j with
    | zero => simp [Tab.mapFrom]
    | succ j =>
      simp only [Tab.mapFrom, List.getElem_cons_succ]
      rw [ih]
      congr 1
      omega

@[simp] theorem Tab.getElem_mapIdx (f : Nat → α → α) (v : Vector α n) (i : Nat) (h : i < n) :
    (Tab.mapIdx f v)[i] = f i v[i] := by
  have := Tab.getElem_mapFrom f v.toArray.toList 0 i (by simpa [Tab.length_mapFrom] using h)
  simpa [Tab.mapIdx] using this

@[simp] theorem Tab.at_of_lt (v : Vector α n) (i : Nat) (d : α) (h : i < n) : Tab.at v i d = v[i] := by
  simp [Tab.at, h]

end Sys2Proof.Machine
end

