-- ==== Sys2Proof/Laws/Ops.lean ====
section
/-! SUPPORT. What the shared operations do: the parameters of this hardware, bits and sets of slots, the least member,
colour channels, the size tables, texels, taking a fault. -/

namespace Sys2Proof

/-! ### The parameters (R6) -/

@[simp] theorem cfg_screenW : cfg.screenW = 240 := rfl
@[simp] theorem cfg_screenH : cfg.screenH = 160 := rfl
@[simp] theorem cfg_nObj : cfg.nObj = 128 := rfl
@[simp] theorem cfg_frac : cfg.frac = 8 := rfl
@[simp] theorem cfg_evMax : cfg.evMax = 16 := rfl
@[simp] theorem cfg_prioMax : cfg.prioMax = 3 := rfl
@[simp] theorem cfg_vramSize : cfg.vramSize = 0x18000 := rfl
@[simp] theorem cfg_bgVramSize : cfg.bgVramSize = 0x10000 := rfl
@[simp] theorem cfg_objTileBase : cfg.objTileBase = 0x10000 := rfl
@[simp] theorem cfg_objTileUnits : cfg.objTileUnits = 1024 := rfl
@[simp] theorem cfg_objTileUnitBytes : cfg.objTileUnitBytes = 32 := rfl
@[simp] theorem cfg_objBitmapMinTile : cfg.objBitmapMinTile = 512 := rfl
@[simp] theorem cfg_bmp3W : cfg.bmp3W = 240 := rfl
@[simp] theorem cfg_bmp3H : cfg.bmp3H = 160 := rfl
@[simp] theorem cfg_bmp4W : cfg.bmp4W = 240 := rfl
@[simp] theorem cfg_bmp4H : cfg.bmp4H = 160 := rfl
@[simp] theorem cfg_bmp5W : cfg.bmp5W = 160 := rfl
@[simp] theorem cfg_bmp5H : cfg.bmp5H = 128 := rfl
@[simp] theorem cfg_bmpPage1 : cfg.bmpPage1 = 0xA000 := rfl
@[simp] theorem cfg_windowStub : cfg.windowStub = false := rfl
@[simp] theorem cfg_blendRound : cfg.blendRound = .halfUp := rfl
@[simp] theorem cfg_mosaicMod : cfg.mosaicMod = .floor := rfl

namespace Machine

/-- The tables of `State` have the lengths that the parameters give them (R6, R39, R40). -/
theorem table_lengths : cfg.screenW = 240 ∧ cfg.screenH = 160 ∧ cfg.nObj = 2 ^ 7 ∧ cfg.nBg = 2 ^ 2 ∧
    cfg.nBgAff = 2 ^ 1 ∧ cfg.nObjAff = 2 ^ 5 := by decide

/-! ### Bits -/

/-- A bit after one bit is replaced. -/
theorem getLsbD_setBit {w : Nat} (v : BitVec w) (n i : Nat) (b : Bool) (hn : n < w) :
    (setBit v n b).getLsbD i = if i = n then b else v.getLsbD i := by
  by_cases hi : i = n
  · subst hi
    cases b <;> simp [setBit, hn]
  · have h1 : (1#w <<< n).getLsbD i = false := by
      rw [BitVec.getLsbD_shiftLeft]
      by_cases hlt : i < n
      · simp [hlt]
      · have : ¬ (i - n = 0) := by omega
        simp [BitVec.getLsbD_one, this]
    rw [if_neg hi]
    cases b
    · by_cases hw : i < w
      · simp only [setBit, Bool.false_eq_true, if_false, BitVec.getLsbD_and, BitVec.getLsbD_not, h1]
        simp [hw]
      · simp [BitVec.getLsbD_of_ge _ _ (Nat.le_of_not_lt hw)]
    · simp [setBit, h1]

@[simp] theorem bitOf_insertSlot (s t : SlotNo) (v : SlotSet) :
    bitOf (insertSlot s v) t = (decide (t = s) || bitOf v t) := by
  have hs : s.toNat < 128 := s.isLt
  by_cases h : t = s
  · subst h
    simp [bitOf, insertSlot, getLsbD_setBit v _ _ _ hs]
  · have hne : t.toNat ≠ s.toNat := fun e => h (BitVec.eq_of_toNat_eq e)
    simp [bitOf, insertSlot, getLsbD_setBit v _ _ _ hs, hne, h]

@[simp] theorem bitOf_removeSlot (s t : SlotNo) (v : SlotSet) :
    bitOf (removeSlot s v) t = (!decide (t = s) && bitOf v t) := by
  have hs : s.toNat < 128 := s.isLt
  by_cases h : t = s
  · subst h
    simp [bitOf, removeSlot, getLsbD_setBit v _ _ _ hs]
  · have hne : t.toNat ≠ s.toNat := fun e => h (BitVec.eq_of_toNat_eq e)
    simp [bitOf, removeSlot, getLsbD_setBit v _ _ _ hs, hne, h]

@[simp] theorem bitOf_zero (t : SlotNo) : bitOf 0#128 t = false := by
  simp [bitOf]

@[simp] theorem bitOf_and (v w : SlotSet) (t : SlotNo) : bitOf (v &&& w) t = (bitOf v t && bitOf w t) := by
  simp [bitOf]

/-- Two sets with the same members are the same set. -/
theorem slotSet_ext (v w : SlotSet) (h : ∀ t : SlotNo, bitOf v t = bitOf w t) : v = w := by
  apply BitVec.eq_of_getLsbD_eq
  intro i hi
  have := h (BitVec.ofNat 7 i)
  rwa [bitOf, bitOf, BitVec.toNat_ofNat, Nat.mod_eq_of_lt (by omega)] at this

/-- The sets of a range of indexes changed by `f`, and no other. -/
theorem getElem_overRange {n : Nat} (f : SlotSet → SlotSet) (lo hi : Nat) (v : Vector SlotSet n) (i : Nat) (h : i < n) :
    (overRange f lo hi v)[i] = if lo ≤ i ∧ i < hi then f v[i] else v[i] := by
  simp [overRange]

/-! ### The least member -/

theorem mem_allSlots (t : SlotNo) : t ∈ allSlots := by
  refine List.mem_map.2 ⟨t.toNat, List.mem_range.2 t.isLt, ?_⟩
  simp

/-- There is no least member iff the set is empty. -/
theorem lowest_eq_none (v : SlotSet) : lowest v = none ↔ v = 0#128 := by
  rw [lowest, List.find?_eq_none]
  constructor
  · intro h
    refine slotSet_ext v 0#128 fun t => ?_
    have := h t (mem_allSlots t)
    simpa using this
  · rintro rfl t -
    simp

/-- The least member is a member. -/
theorem lowest_mem (v : SlotSet) (t : SlotNo) (h : lowest v = some t) : bitOf v t = true := List.find?_some h

theorem allSlots_sorted : allSlots.Pairwise fun a b => a.toNat < b.toNat := by
  refine List.pairwise_map.2 (List.Pairwise.imp_of_mem ?_ List.pairwise_lt_range)
  intro a b ha hb hab
  have ha := List.mem_range.1 ha
  have hb := List.mem_range.1 hb
  simp only [BitVec.toNat_ofNat]
  omega

/-- No member is below the least one. -/
theorem lowest_le (v : SlotSet) (t u : SlotNo) (h : lowest v = some t) (hu : bitOf v u = true) : t.toNat ≤ u.toNat := by
  obtain ⟨-, as, bs, hsplit, has⟩ := List.find?_eq_some_iff_append.1 h
  have hmem : u ∈ as ++ t :: bs := hsplit ▸ mem_allSlots u
  rcases List.mem_append.1 hmem with hm | hm
  · exact absurd hu (by simpa using has u hm)
  · rcases List.mem_cons.1 hm with rfl | hm
    · exact Nat.le_refl _
    · have hs := hsplit ▸ allSlots_sorted
      rw [List.pairwise_append, List.pairwise_cons] at hs
      exact Nat.le_of_lt (hs.2.1.1 u hm)

/-! ### Colours -/

theorem channel_lt (c : Colour) (i : Nat) : channel c i < 32 := (c.extractLsb' (5 * i) 5).isLt

theorem channel_packRgb (c0 c1 c2 : Nat) (h0 : c0 < 32) (h1 : c1 < 32) (h2 : c2 < 32) :
    channel (packRgb c0 c1 c2) 0 = c0 ∧ channel (packRgb c0 c1 c2) 1 = c1 ∧ channel (packRgb c0 c1 c2) 2 = c2 := by
  have e : (packRgb c0 c1 c2).toNat = c2 * 1024 + c1 * 32 + c0 := by
    simp only [packRgb, BitVec.toNat_append, BitVec.toNat_ofNat]
    rw [← Nat.shiftLeft_add_eq_or_of_lt (by omega), ← Nat.shiftLeft_add_eq_or_of_lt (by omega)]
    simp only [Nat.shiftLeft_eq]
    omega
  simp only [channel, BitVec.extractLsb'_toNat, Nat.shiftRight_eq_div_pow]
  omega

/-! ### The size tables -/

theorem objDim_range (shape size : BitVec 2) :
    (shape = 3 ∧ objDim shape size = (0, 0)) ∨
    (shape ≠ 3 ∧ (objDim shape size).1 ∈ [8, 16, 32, 64] ∧ (objDim shape size).2 ∈ [8, 16, 32, 64]) := by
  revert shape size; decide

theorem tileBgDim_range (size : BitVec 2) : (tileBgDim size).1 ∈ [256, 512] ∧ (tileBgDim size).2 ∈ [256, 512] := by
  revert size; decide

theorem affBgDim_range (size : BitVec 2) : affBgDim size ∈ [128, 256, 512, 1024] := by
  revert size; decide

theorem affineBg_eq (k : BitVec 1) : affineBg k = 2 + k.setWidth 2 := by
  revert k; decide

/-! ### Texels -/

theorem low_nibble (b : Byte) : (b.extractLsb' 0 4).toNat = b.toNat % 16 := by
  simp [BitVec.extractLsb'_toNat]

theorem high_nibble (b : Byte) : (b.extractLsb' 4 4).toNat = b.toNat / 16 := by
  have := b.isLt
  simp only [BitVec.extractLsb'_toNat, Nat.shiftRight_eq_div_pow]
  omega

/-- A texel by its address, the region and, at 4-bit depth, the nibble. -/
theorem texelIndex_eq (m : Memory 8) (base px py : Nat) (c8 : Bool) (r : Region) :
    texelIndex m base c8 px py r =
      let addr := if c8 then base + py * 8 + px else base + py * 4 + px / 2
      let b := (Memory.read m addr).toNat
      if addr < r.lo ∨ r.hi ≤ addr then none else some (if c8 then b else if px % 2 = 1 then b / 16 else b % 16) := by
  cases c8
  · by_cases h : base + py * 4 + px / 2 < r.lo ∨ r.hi ≤ base + py * 4 + px / 2 <;>
      by_cases hp : px % 2 = 1 <;> simp [texelIndex, readIn, h, hp, low_nibble, high_nibble, -BitVec.extractLsb'_toNat]
  · by_cases h : base + py * 8 + px < r.lo ∨ r.hi ≤ base + py * 8 + px <;> simp [texelIndex, readIn, h]

/-! ### Taking a fault -/

@[simp] theorem guarded_zero (i : Instr) (s s' : State) : guarded 0#5 i s s' = s' := rfl

/-- A guarded command either completes or only takes the fault. -/
theorem guarded_cases (bits : FaultSet) (i : Instr) (s s' : State) :
    (bits = 0#5 ∧ guarded bits i s s' = s') ∨ (bits ≠ 0#5 ∧ guarded bits i s s' = raise bits (encode i) s) := by
  by_cases h : bits = 0#5
  · exact .inl ⟨h, by simp [guarded, h]⟩
  · exact .inr ⟨h, by simp [guarded, h]⟩

@[simp] theorem bitIf_true (b : FaultSet) : bitIf true b = b := rfl

@[simp] theorem bitIf_false (b : FaultSet) : bitIf false b = 0#5 := rfl

end Machine

end Sys2Proof
end

