-- ==== Sys2Proof/Laws/PerInstr.lean ====
section
/-! SUPPORT. Families of facts about every command as syntax, one lemma per constructor of `Instr`. -/

namespace Sys2Proof.Laws

/-- The bits 31:24 of a command's word are the opcode that the table gives its mnemonic (spec/30_encoding.md rules R101,
R102). -/
def Opcode.Statement (i : Instr) : Prop :=
  ∃ row ∈ opcodeTable, row.mnemonic = i.mnemonic ∧ (encode i).toNat / 2 ^ 24 = row.opcode.toNat

/-- How far above its opcode the operands of a word reach. -/
theorem opcode_of_bounds (i : Instr) (row : OpcodeRow) (hrow : row ∈ opcodeTable) (hm : row.mnemonic = i.mnemonic)
    (lo : row.opcode.toNat * 2 ^ 24 ≤ encodeNat i) (hi : encodeNat i < (row.opcode.toNat + 1) * 2 ^ 24) :
    Opcode.Statement i := by
  refine ⟨row, hrow, hm, ?_⟩
  have hop : row.opcode.toNat < 256 := row.opcode.isLt
  rw [encode, BitVec.toNat_ofNat, Nat.mod_eq_of_lt (by omega)]
  omega

theorem slot_bound (s : SlotNo) : s.toNat < 128 := s.isLt
theorem byte_bound (x : BitVec 8) : x.toNat < 256 := x.isLt
theorem color_bound (c : Colour) : c.toNat < 32768 := c.isLt
theorem prio_bound (p : BitVec 3) : p.toNat < 8 := p.isLt
theorem bg_bound (n : BitVec 2) : n.toNat < 4 := n.isLt
theorem group_bound (k : BitVec 1) : k.toNat < 2 := k.isLt
theorem flag_bound (b : Bool) : b.toNat < 2 := by cases b <;> decide

theorem xyWord_bounds (base : Nat) (x y : BitVec 8) : base ≤ xyWord base x y ∧ xyWord base x y < base + 65536 := by
  have hx := byte_bound x
  have hy := byte_bound y
  simp only [xyWord, Nat.shiftLeft_eq]
  omega

theorem layerWord_bounds (base : Nat) (c : Colour) (p : BitVec 3) :
    base ≤ layerWord base c p ∧ layerWord base c p < base + 262144 := by
  have hc := color_bound c
  have hp := prio_bound p
  simp only [layerWord, Nat.shiftLeft_eq]
  omega

theorem Opcode.markDrawn (slot : SlotNo) : Opcode.Statement (.markDrawn slot) := by
  have := slot_bound slot
  refine opcode_of_bounds _ ⟨0x01, "MARK_DRAWN", .S⟩ (by decide) rfl ?_ ?_ <;> simp [encodeNat]; omega

theorem Opcode.markHidden (slot : SlotNo) : Opcode.Statement (.markHidden slot) := by
  have := slot_bound slot
  refine opcode_of_bounds _ ⟨0x02, "MARK_HIDDEN", .S⟩ (by decide) rfl ?_ ?_ <;> simp [encodeNat]; omega

theorem Opcode.query (x y : BitVec 8) : Opcode.Statement (.query x y) := by
  have := xyWord_bounds 0x03000000 x y
  refine opcode_of_bounds _ ⟨0x03, "QUERY", .P⟩ (by decide) rfl ?_ ?_ <;> simp [encodeNat] <;> omega

theorem Opcode.qpop : Opcode.Statement .qpop :=
  opcode_of_bounds _ ⟨0x04, "QPOP", .Z⟩ (by decide) rfl (by decide) (by decide)

theorem Opcode.smpObj (x y : BitVec 8) : Opcode.Statement (.smpObj x y) := by
  have := xyWord_bounds 0x08000000 x y
  refine opcode_of_bounds _ ⟨0x08, "SMP_OBJ", .P⟩ (by decide) rfl ?_ ?_ <;> simp [encodeNat] <;> omega

theorem Opcode.smpTile (bg : BitVec 2) (x y : BitVec 8) : Opcode.Statement (.smpTile bg x y) := by
  have hb := bg_bound bg
  have := xyWord_bounds (0x09000000 + (bg.toNat <<< 16)) x y
  refine opcode_of_bounds _ ⟨0x09, "SMP_TILE", .T⟩ (by decide) rfl ?_ ?_ <;>
    simp [encodeNat, Nat.shiftLeft_eq] at * <;> omega

theorem Opcode.smpAff (k : BitVec 1) : Opcode.Statement (.smpAff k) := by
  have hk := group_bound k
  refine opcode_of_bounds _ ⟨0x0A, "SMP_AFF", .A⟩ (by decide) rfl ?_ ?_ <;> simp [encodeNat, Nat.shiftLeft_eq]; omega

theorem Opcode.smpBmp3 (x y : BitVec 8) : Opcode.Statement (.smpBmp3 x y) := by
  have := xyWord_bounds 0x0B000000 x y
  refine opcode_of_bounds _ ⟨0x0B, "SMP_BMP3", .P⟩ (by decide) rfl ?_ ?_ <;> simp [encodeNat] <;> omega

theorem Opcode.smpBmp4 (x y : BitVec 8) : Opcode.Statement (.smpBmp4 x y) := by
  have := xyWord_bounds 0x0C000000 x y
  refine opcode_of_bounds _ ⟨0x0C, "SMP_BMP4", .P⟩ (by decide) rfl ?_ ?_ <;> simp [encodeNat] <;> omega

theorem Opcode.smpBmp5 (x y : BitVec 8) : Opcode.Statement (.smpBmp5 x y) := by
  have := xyWord_bounds 0x0D000000 x y
  refine opcode_of_bounds _ ⟨0x0D, "SMP_BMP5", .P⟩ (by decide) rfl ?_ ?_ <;> simp [encodeNat] <;> omega

theorem Opcode.winEval (x y : BitVec 8) (ow : Bool) : Opcode.Statement (.winEval x y ow) := by
  have ho := flag_bound ow
  have := xyWord_bounds (0x0E000000 + (ow.toNat <<< 16)) x y
  refine opcode_of_bounds _ ⟨0x0E, "WIN_EVAL", .W⟩ (by decide) rfl ?_ ?_ <;>
    simp [encodeNat, Nat.shiftLeft_eq] at * <;> omega

theorem Opcode.bldReset : Opcode.Statement .bldReset :=
  opcode_of_bounds _ ⟨0x10, "BLD_RESET", .Z⟩ (by decide) rfl (by decide) (by decide)

theorem Opcode.bldObj (color : Colour) (prio : BitVec 3) (semi : Bool) :
    Opcode.Statement (.bldObj color prio semi) := by
  have hs := flag_bound semi
  have := layerWord_bounds (0x11000000 + (semi.toNat <<< 18)) color prio
  refine opcode_of_bounds _ ⟨0x11, "BLD_OBJ", .O⟩ (by decide) rfl ?_ ?_ <;>
    simp [encodeNat, Nat.shiftLeft_eq] at * <;> omega

theorem Opcode.bldBg0 (color : Colour) (prio : BitVec 3) : Opcode.Statement (.bldBg0 color prio) := by
  have := layerWord_bounds 0x12000000 color prio
  refine opcode_of_bounds _ ⟨0x12, "BLD_BG0", .G⟩ (by decide) rfl ?_ ?_ <;> simp [encodeNat] <;> omega

theorem Opcode.bldBg1 (color : Colour) (prio : BitVec 3) : Opcode.Statement (.bldBg1 color prio) := by
  have := layerWord_bounds 0x13000000 color prio
  refine opcode_of_bounds _ ⟨0x13, "BLD_BG1", .G⟩ (by decide) rfl ?_ ?_ <;> simp [encodeNat] <;> omega

theorem Opcode.bldBg2 (color : Colour) (prio : BitVec 3) : Opcode.Statement (.bldBg2 color prio) := by
  have := layerWord_bounds 0x14000000 color prio
  refine opcode_of_bounds _ ⟨0x14, "BLD_BG2", .G⟩ (by decide) rfl ?_ ?_ <;> simp [encodeNat] <;> omega

theorem Opcode.bldBg3 (color : Colour) (prio : BitVec 3) : Opcode.Statement (.bldBg3 color prio) := by
  have := layerWord_bounds 0x15000000 color prio
  refine opcode_of_bounds _ ⟨0x15, "BLD_BG3", .G⟩ (by decide) rfl ?_ ?_ <;> simp [encodeNat] <;> omega

theorem Opcode.bldBackdrop (color : Colour) : Opcode.Statement (.bldBackdrop color) := by
  have := color_bound color
  refine opcode_of_bounds _ ⟨0x16, "BLD_BACKDROP", .K⟩ (by decide) rfl ?_ ?_ <;> simp [encodeNat]; omega

theorem Opcode.bldComposite (blendEn : Bool) : Opcode.Statement (.bldComposite blendEn) := by
  have := flag_bound blendEn
  refine opcode_of_bounds _ ⟨0x17, "BLD_COMPOSITE", .C⟩ (by decide) rfl ?_ ?_ <;> simp [encodeNat]; omega

theorem Opcode.accSeed : Opcode.Statement .accSeed :=
  opcode_of_bounds _ ⟨0x18, "ACC_SEED", .Z⟩ (by decide) rfl (by decide) (by decide)

theorem Opcode.accStep : Opcode.Statement .accStep :=
  opcode_of_bounds _ ⟨0x19, "ACC_STEP", .Z⟩ (by decide) rfl (by decide) (by decide)

theorem Opcode.renderRow (y : BitVec 8) : Opcode.Statement (.renderRow y) := by
  have := byte_bound y
  refine opcode_of_bounds _ ⟨0x1A, "RENDER_ROW", .Y⟩ (by decide) rfl ?_ ?_ <;> simp [encodeNat, Nat.shiftLeft_eq]; omega

theorem Opcode.startFrame : Opcode.Statement .startFrame :=
  opcode_of_bounds _ ⟨0x20, "START_FRAME", .Z⟩ (by decide) rfl (by decide) (by decide)

theorem Opcode.shouldFlush : Opcode.Statement .shouldFlush :=
  opcode_of_bounds _ ⟨0x21, "SHOULD_FLUSH", .Z⟩ (by decide) rfl (by decide) (by decide)

end Sys2Proof.Laws
end

