-- ==== Sys2Proof/Laws/State.lean ====
section
/-! SUPPORT. One lemma per field of `State` and named update of it, so that no proof unfolds the update: the field after
the update, or that the update leaves it alone. -/

namespace Sys2Proof.Machine

variable (s : State)

/-! ### Taking a fault (R293). -/

@[simp] theorem raise_host (bits : FaultSet) (w : Word) : (raise bits w s).host = s.host := rfl
@[simp] theorem raise_colset (bits : FaultSet) (w : Word) : (raise bits w s).colset = s.colset := rfl
@[simp] theorem raise_rowset (bits : FaultSet) (w : Word) : (raise bits w s).rowset = s.rowset := rfl
@[simp] theorem raise_objc (bits : FaultSet) (w : Word) : (raise bits w s).objc = s.objc := rfl
@[simp] theorem raise_qset (bits : FaultSet) (w : Word) : (raise bits w s).qset = s.qset := rfl
@[simp] theorem raise_qres (bits : FaultSet) (w : Word) : (raise bits w s).qres = s.qres := rfl
@[simp] theorem raise_ores (bits : FaultSet) (w : Word) : (raise bits w s).ores = s.ores := rfl
@[simp] theorem raise_bres (bits : FaultSet) (w : Word) : (raise bits w s).bres = s.bres := rfl
@[simp] theorem raise_wres (bits : FaultSet) (w : Word) : (raise bits w s).wres = s.wres := rfl
@[simp] theorem raise_cres (bits : FaultSet) (w : Word) : (raise bits w s).cres = s.cres := rfl
@[simp] theorem raise_flush (bits : FaultSet) (w : Word) : (raise bits w s).flush = s.flush := rfl
@[simp] theorem raise_acc (bits : FaultSet) (w : Word) : (raise bits w s).acc = s.acc := rfl
@[simp] theorem raise_bu (bits : FaultSet) (w : Word) : (raise bits w s).bu = s.bu := rfl
@[simp] theorem raise_snap (bits : FaultSet) (w : Word) : (raise bits w s).snap = s.snap := rfl
@[simp] theorem raise_dirty (bits : FaultSet) (w : Word) : (raise bits w s).dirty = s.dirty := rfl
@[simp] theorem raise_fault (bits : FaultSet) (w : Word) : (raise bits w s).fault = s.fault ||| bits := rfl
@[simp] theorem raise_faultCmd (bits : FaultSet) (w : Word) : (raise bits w s).faultCmd = if s.fault =
    0#5 then w else s.faultCmd := rfl
@[simp] theorem raise_out (bits : FaultSet) (w : Word) : (raise bits w s).out = s.out := rfl
@[simp] theorem raise_inbox (bits : FaultSet) (w : Word) : (raise bits w s).inbox = s.inbox := rfl
@[simp] theorem raise_readData (bits : FaultSet) (w : Word) : (raise bits w s).readData = s.readData := rfl

/-! ### A pixel (R79). -/

@[simp] theorem writeOut_host (r c : Nat) (v : Half) : (writeOut r c v s).host = s.host := rfl
@[simp] theorem writeOut_colset (r c : Nat) (v : Half) : (writeOut r c v s).colset = s.colset := rfl
@[simp] theorem writeOut_rowset (r c : Nat) (v : Half) : (writeOut r c v s).rowset = s.rowset := rfl
@[simp] theorem writeOut_objc (r c : Nat) (v : Half) : (writeOut r c v s).objc = s.objc := rfl
@[simp] theorem writeOut_qset (r c : Nat) (v : Half) : (writeOut r c v s).qset = s.qset := rfl
@[simp] theorem writeOut_qres (r c : Nat) (v : Half) : (writeOut r c v s).qres = s.qres := rfl
@[simp] theorem writeOut_ores (r c : Nat) (v : Half) : (writeOut r c v s).ores = s.ores := rfl
@[simp] theorem writeOut_bres (r c : Nat) (v : Half) : (writeOut r c v s).bres = s.bres := rfl
@[simp] theorem writeOut_wres (r c : Nat) (v : Half) : (writeOut r c v s).wres = s.wres := rfl
@[simp] theorem writeOut_cres (r c : Nat) (v : Half) : (writeOut r c v s).cres = s.cres := rfl
@[simp] theorem writeOut_flush (r c : Nat) (v : Half) : (writeOut r c v s).flush = s.flush := rfl
@[simp] theorem writeOut_acc (r c : Nat) (v : Half) : (writeOut r c v s).acc = s.acc := rfl
@[simp] theorem writeOut_bu (r c : Nat) (v : Half) : (writeOut r c v s).bu = s.bu := rfl
@[simp] theorem writeOut_snap (r c : Nat) (v : Half) : (writeOut r c v s).snap = s.snap := rfl
@[simp] theorem writeOut_dirty (r c : Nat) (v : Half) : (writeOut r c v s).dirty = s.dirty := rfl
@[simp] theorem writeOut_fault (r c : Nat) (v : Half) : (writeOut r c v s).fault = s.fault := rfl
@[simp] theorem writeOut_faultCmd (r c : Nat) (v : Half) : (writeOut r c v s).faultCmd = s.faultCmd := rfl
@[simp] theorem writeOut_out (r c : Nat) (v : Half) : (writeOut r c v s).out =
    Memory.write s.out (outIndex r c) v := rfl
@[simp] theorem writeOut_inbox (r c : Nat) (v : Half) : (writeOut r c v s).inbox = s.inbox := rfl
@[simp] theorem writeOut_readData (r c : Nat) (v : Half) : (writeOut r c v s).readData = s.readData := rfl

/-! ### A background sample (R198). -/

@[simp] theorem setBres_host (v : Option Colour) : (setBres v s).host = s.host := by cases v <;> rfl
@[simp] theorem setBres_colset (v : Option Colour) : (setBres v s).colset = s.colset := by cases v <;> rfl
@[simp] theorem setBres_rowset (v : Option Colour) : (setBres v s).rowset = s.rowset := by cases v <;> rfl
@[simp] theorem setBres_objc (v : Option Colour) : (setBres v s).objc = s.objc := by cases v <;> rfl
@[simp] theorem setBres_qset (v : Option Colour) : (setBres v s).qset = s.qset := by cases v <;> rfl
@[simp] theorem setBres_qres (v : Option Colour) : (setBres v s).qres = s.qres := by cases v <;> rfl
@[simp] theorem setBres_ores (v : Option Colour) : (setBres v s).ores = s.ores := by cases v <;> rfl
@[simp] theorem setBres_wres (v : Option Colour) : (setBres v s).wres = s.wres := by cases v <;> rfl
@[simp] theorem setBres_cres (v : Option Colour) : (setBres v s).cres = s.cres := by cases v <;> rfl
@[simp] theorem setBres_flush (v : Option Colour) : (setBres v s).flush = s.flush := by cases v <;> rfl
@[simp] theorem setBres_acc (v : Option Colour) : (setBres v s).acc = s.acc := by cases v <;> rfl
@[simp] theorem setBres_bu (v : Option Colour) : (setBres v s).bu = s.bu := by cases v <;> rfl
@[simp] theorem setBres_snap (v : Option Colour) : (setBres v s).snap = s.snap := by cases v <;> rfl
@[simp] theorem setBres_dirty (v : Option Colour) : (setBres v s).dirty = s.dirty := by cases v <;> rfl
@[simp] theorem setBres_fault (v : Option Colour) : (setBres v s).fault = s.fault := by cases v <;> rfl
@[simp] theorem setBres_faultCmd (v : Option Colour) : (setBres v s).faultCmd = s.faultCmd := by cases v <;> rfl
@[simp] theorem setBres_out (v : Option Colour) : (setBres v s).out = s.out := by cases v <;> rfl
@[simp] theorem setBres_inbox (v : Option Colour) : (setBres v s).inbox = s.inbox := by cases v <;> rfl
@[simp] theorem setBres_readData (v : Option Colour) : (setBres v s).readData = s.readData := by cases v <;> rfl

/-! ### `SMP_OBJ` (R160). -/

@[simp] theorem smpObj_host (x y : BitVec 8) : (smpObj x y s).host = s.host := rfl
@[simp] theorem smpObj_colset (x y : BitVec 8) : (smpObj x y s).colset = s.colset := rfl
@[simp] theorem smpObj_rowset (x y : BitVec 8) : (smpObj x y s).rowset = s.rowset := rfl
@[simp] theorem smpObj_objc (x y : BitVec 8) : (smpObj x y s).objc = s.objc := rfl
@[simp] theorem smpObj_qset (x y : BitVec 8) : (smpObj x y s).qset = 0#128 := rfl
@[simp] theorem smpObj_qres (x y : BitVec 8) : (smpObj x y s).qres = s.qres := rfl
@[simp] theorem smpObj_ores (x y : BitVec 8) : (smpObj x y s).ores = sampleObject s x.toNat y.toNat := rfl
@[simp] theorem smpObj_bres (x y : BitVec 8) : (smpObj x y s).bres = s.bres := rfl
@[simp] theorem smpObj_wres (x y : BitVec 8) : (smpObj x y s).wres = s.wres := rfl
@[simp] theorem smpObj_cres (x y : BitVec 8) : (smpObj x y s).cres = s.cres := rfl
@[simp] theorem smpObj_flush (x y : BitVec 8) : (smpObj x y s).flush = s.flush := rfl
@[simp] theorem smpObj_acc (x y : BitVec 8) : (smpObj x y s).acc = s.acc := rfl
@[simp] theorem smpObj_bu (x y : BitVec 8) : (smpObj x y s).bu = s.bu := rfl
@[simp] theorem smpObj_snap (x y : BitVec 8) : (smpObj x y s).snap = s.snap := rfl
@[simp] theorem smpObj_dirty (x y : BitVec 8) : (smpObj x y s).dirty = s.dirty := rfl
@[simp] theorem smpObj_fault (x y : BitVec 8) : (smpObj x y s).fault = s.fault := rfl
@[simp] theorem smpObj_faultCmd (x y : BitVec 8) : (smpObj x y s).faultCmd = s.faultCmd := rfl
@[simp] theorem smpObj_out (x y : BitVec 8) : (smpObj x y s).out = s.out := rfl
@[simp] theorem smpObj_inbox (x y : BitVec 8) : (smpObj x y s).inbox = s.inbox := rfl
@[simp] theorem smpObj_readData (x y : BitVec 8) : (smpObj x y s).readData = s.readData := rfl

/-! ### `WIN_EVAL` (R210). -/

@[simp] theorem winEval_host (x y : BitVec 8) (ow : Bool) : (winEval x y ow s).host = s.host := rfl
@[simp] theorem winEval_colset (x y : BitVec 8) (ow : Bool) : (winEval x y ow s).colset = s.colset := rfl
@[simp] theorem winEval_rowset (x y : BitVec 8) (ow : Bool) : (winEval x y ow s).rowset = s.rowset := rfl
@[simp] theorem winEval_objc (x y : BitVec 8) (ow : Bool) : (winEval x y ow s).objc = s.objc := rfl
@[simp] theorem winEval_qset (x y : BitVec 8) (ow : Bool) : (winEval x y ow s).qset = s.qset := rfl
@[simp] theorem winEval_qres (x y : BitVec 8) (ow : Bool) : (winEval x y ow s).qres = s.qres := rfl
@[simp] theorem winEval_ores (x y : BitVec 8) (ow : Bool) : (winEval x y ow s).ores = s.ores := rfl
@[simp] theorem winEval_bres (x y : BitVec 8) (ow : Bool) : (winEval x y ow s).bres = s.bres := rfl
@[simp] theorem winEval_wres (x y : BitVec 8) (ow : Bool) : (winEval x y ow s).wres =
    windowEval cfg s.host.reg x.toNat y.toNat ow := rfl
@[simp] theorem winEval_cres (x y : BitVec 8) (ow : Bool) : (winEval x y ow s).cres = s.cres := rfl
@[simp] theorem winEval_flush (x y : BitVec 8) (ow : Bool) : (winEval x y ow s).flush = s.flush := rfl
@[simp] theorem winEval_acc (x y : BitVec 8) (ow : Bool) : (winEval x y ow s).acc = s.acc := rfl
@[simp] theorem winEval_bu (x y : BitVec 8) (ow : Bool) : (winEval x y ow s).bu = s.bu := rfl
@[simp] theorem winEval_snap (x y : BitVec 8) (ow : Bool) : (winEval x y ow s).snap = s.snap := rfl
@[simp] theorem winEval_dirty (x y : BitVec 8) (ow : Bool) : (winEval x y ow s).dirty = s.dirty := rfl
@[simp] theorem winEval_fault (x y : BitVec 8) (ow : Bool) : (winEval x y ow s).fault = s.fault := rfl
@[simp] theorem winEval_faultCmd (x y : BitVec 8) (ow : Bool) : (winEval x y ow s).faultCmd = s.faultCmd := rfl
@[simp] theorem winEval_out (x y : BitVec 8) (ow : Bool) : (winEval x y ow s).out = s.out := rfl
@[simp] theorem winEval_inbox (x y : BitVec 8) (ow : Bool) : (winEval x y ow s).inbox = s.inbox := rfl
@[simp] theorem winEval_readData (x y : BitVec 8) (ow : Bool) : (winEval x y ow s).readData = s.readData := rfl

/-! ### `BLD_RESET` (R222). -/

@[simp] theorem bldReset_host : (bldReset s).host = s.host := rfl
@[simp] theorem bldReset_colset : (bldReset s).colset = s.colset := rfl
@[simp] theorem bldReset_rowset : (bldReset s).rowset = s.rowset := rfl
@[simp] theorem bldReset_objc : (bldReset s).objc = s.objc := rfl
@[simp] theorem bldReset_qset : (bldReset s).qset = s.qset := rfl
@[simp] theorem bldReset_qres : (bldReset s).qres = s.qres := rfl
@[simp] theorem bldReset_ores : (bldReset s).ores = s.ores := rfl
@[simp] theorem bldReset_bres : (bldReset s).bres = s.bres := rfl
@[simp] theorem bldReset_wres : (bldReset s).wres = s.wres := rfl
@[simp] theorem bldReset_cres : (bldReset s).cres = s.cres := rfl
@[simp] theorem bldReset_flush : (bldReset s).flush = s.flush := rfl
@[simp] theorem bldReset_acc : (bldReset s).acc = s.acc := rfl
@[simp] theorem bldReset_bu : (bldReset s).bu = { state := .reset, slot0 := Layer.unset, slot1 := Layer.unset } := rfl
@[simp] theorem bldReset_snap : (bldReset s).snap = s.snap := rfl
@[simp] theorem bldReset_dirty : (bldReset s).dirty = s.dirty := rfl
@[simp] theorem bldReset_fault : (bldReset s).fault = s.fault := rfl
@[simp] theorem bldReset_faultCmd : (bldReset s).faultCmd = s.faultCmd := rfl
@[simp] theorem bldReset_out : (bldReset s).out = s.out := rfl
@[simp] theorem bldReset_inbox : (bldReset s).inbox = s.inbox := rfl
@[simp] theorem bldReset_readData : (bldReset s).readData = s.readData := rfl

/-! ### `ACC_SEED` (R270). -/

@[simp] theorem accSeed_host : (accSeed s).host = s.host := rfl
@[simp] theorem accSeed_colset : (accSeed s).colset = s.colset := rfl
@[simp] theorem accSeed_rowset : (accSeed s).rowset = s.rowset := rfl
@[simp] theorem accSeed_objc : (accSeed s).objc = s.objc := rfl
@[simp] theorem accSeed_qset : (accSeed s).qset = s.qset := rfl
@[simp] theorem accSeed_qres : (accSeed s).qres = s.qres := rfl
@[simp] theorem accSeed_ores : (accSeed s).ores = s.ores := rfl
@[simp] theorem accSeed_bres : (accSeed s).bres = s.bres := rfl
@[simp] theorem accSeed_wres : (accSeed s).wres = s.wres := rfl
@[simp] theorem accSeed_cres : (accSeed s).cres = s.cres := rfl
@[simp] theorem accSeed_flush : (accSeed s).flush = s.flush := rfl
@[simp] theorem accSeed_bu : (accSeed s).bu = s.bu := rfl
@[simp] theorem accSeed_snap : (accSeed s).snap = s.snap := rfl
@[simp] theorem accSeed_dirty : (accSeed s).dirty = s.dirty := rfl
@[simp] theorem accSeed_fault : (accSeed s).fault = s.fault := rfl
@[simp] theorem accSeed_faultCmd : (accSeed s).faultCmd = s.faultCmd := rfl
@[simp] theorem accSeed_out : (accSeed s).out = s.out := rfl
@[simp] theorem accSeed_inbox : (accSeed s).inbox = s.inbox := rfl
@[simp] theorem accSeed_readData : (accSeed s).readData = s.readData := rfl

/-! ### `ACC_STEP` (R271). -/

@[simp] theorem accStep_host : (accStep s).host = s.host := rfl
@[simp] theorem accStep_colset : (accStep s).colset = s.colset := rfl
@[simp] theorem accStep_rowset : (accStep s).rowset = s.rowset := rfl
@[simp] theorem accStep_objc : (accStep s).objc = s.objc := rfl
@[simp] theorem accStep_qset : (accStep s).qset = s.qset := rfl
@[simp] theorem accStep_qres : (accStep s).qres = s.qres := rfl
@[simp] theorem accStep_ores : (accStep s).ores = s.ores := rfl
@[simp] theorem accStep_bres : (accStep s).bres = s.bres := rfl
@[simp] theorem accStep_wres : (accStep s).wres = s.wres := rfl
@[simp] theorem accStep_cres : (accStep s).cres = s.cres := rfl
@[simp] theorem accStep_flush : (accStep s).flush = s.flush := rfl
@[simp] theorem accStep_bu : (accStep s).bu = s.bu := rfl
@[simp] theorem accStep_snap : (accStep s).snap = s.snap := rfl
@[simp] theorem accStep_dirty : (accStep s).dirty = s.dirty := rfl
@[simp] theorem accStep_fault : (accStep s).fault = s.fault := rfl
@[simp] theorem accStep_faultCmd : (accStep s).faultCmd = s.faultCmd := rfl
@[simp] theorem accStep_out : (accStep s).out = s.out := rfl
@[simp] theorem accStep_inbox : (accStep s).inbox = s.inbox := rfl
@[simp] theorem accStep_readData : (accStep s).readData = s.readData := rfl

@[simp] theorem setBres_none_bres : (setBres none s).bres = { color := 0, valid := false } := rfl
@[simp] theorem setBres_some_bres (c : Colour) : (setBres (some c) s).bres = { color := c, valid := true } := rfl

end Sys2Proof.Machine
end

