-- ==== Sys2Proof/Tests/Slice0.lean ====
section
/-! SUPPORT. The model's own tests: words written out from spec/30_encoding.md, an ill-formed term for each check of
WellFormed.lean, one or two steps per command with the values of the spec's examples and of spec/95_test_vectors.md, and
for every statement with hypotheses a concrete state and operands that meet them. -/

open Sys2Proof Sys2Proof.Machine

namespace Sys2Proof.Tests

set_option Elab.async false

/-! ### Decoding (R101, R102, R104): the bits of each word are written from the format table -/

theorem test_decode_visibility :
    decode 0b00000001_00000000000000000_1111111 = .ok (.markDrawn 127) ∧
    decode 0b00000010_00000000000000000_0000101 = .ok (.markHidden 5) ∧
    decode 0b00000011_00000000_10011111_11101111 = .ok (.query 239 159) ∧
    decode 0b00000100_000000000000000000000000 = .ok .qpop := by decide

theorem test_decode_samplers :
    decode 0b00001000_00000000_00000010_00000001 = .ok (.smpObj 1 2) ∧
    decode 0b00001001_000000_11_00000010_00000001 = .ok (.smpTile 3 1 2) ∧
    decode 0b00001010_0000000_1_0000000000000000 = .ok (.smpAff 1) ∧
    decode 0b00001011_00000000_00000010_00000001 = .ok (.smpBmp3 1 2) ∧
    decode 0b00001100_00000000_00000010_00000001 = .ok (.smpBmp4 1 2) ∧
    decode 0b00001101_00000000_01111111_10011111 = .ok (.smpBmp5 159 127) := by decide

theorem test_decode_window : decode 0b00001110_0000000_1_00000101_00001010 = .ok (.winEval 10 5 true) := by decide

theorem test_decode_blend :
    decode 0b00010000_000000000000000000000000 = .ok .bldReset ∧
    decode 0b00010001_00000_1_001_000000000011111 = .ok (.bldObj 0x001F 1 true) ∧
    decode 0b00010010_000000_010_000001111100000 = .ok (.bldBg0 0x03E0 2) ∧
    decode 0b00010011_000000_001_111110000000000 = .ok (.bldBg1 0x7C00 1) ∧
    decode 0b00010100_000000_001_000000000011111 = .ok (.bldBg2 0x001F 1) ∧
    decode 0b00010101_000000_111_000001111100000 = .ok (.bldBg3 0x03E0 7) ∧
    decode 0b00010110_000000000_111111111111111 = .ok (.bldBackdrop 0x7FFF) ∧
    decode 0b00010111_00000000000000000000000_1 = .ok (.bldComposite true) := by decide

theorem test_decode_row_and_tracker :
    decode 0b00011000_000000000000000000000000 = .ok .accSeed ∧
    decode 0b00011001_000000000000000000000000 = .ok .accStep ∧
    decode 0b00011010_00000000_00000011_00000000 = .ok (.renderRow 3) ∧
    decode 0b00100000_000000000000000000000000 = .ok .startFrame ∧
    decode 0b00100001_000000000000000000000000 = .ok .shouldFlush := by decide

/-- Opcodes at the edges of the gaps of R104. -/
theorem test_decode_unknown_opcodes :
    [0x00, 0x05, 0x07, 0x0F, 0x1B, 0x1F, 0x22, 0xFF].all (fun op : Nat =>
      decode (BitVec.ofNat 32 (op * 0x1000000)) == .error .unknownOpcode) = true := by decide

/-- One word per format with its lowest must-be-zero bit set. -/
theorem test_decode_reserved_bits :
    [0x04000001, 0x01000080, 0x03010000, 0x0E020000, 0x09040000, 0x0A000001, 0x0A020000, 0x11080000, 0x12040000,
     0x16008000, 0x17000002, 0x1A000301, 0x1A010300].all (fun w : Word =>
      decode w == .error .reservedBitSet) = true := by decide

theorem test_table_word : decodeTableWord 32 0x09020106 = some (.smpTile 2 6 1) ∧
    decodeTableWord 32 0x05000000 = none ∧ decodeTableWord 32 0x04000001 = none := by decide

theorem test_assemble_line :
    assembleLine "  SMP_TILE 1 , 0x1F,7 ; c" = some [.command (.smpTile 1 31 7)] ∧
    assembleLine "REMARK 3" = some [.command (.markHidden 3), .command (.markDrawn 3)] ∧
    assembleLine "SMP_AFF 4" = none ∧ assembleLine "QUERY 1 2" = none := by decide +kernel

/-! ### Well-formedness: each check refuses an ill-formed term -/

/-- A word is of no row of the table: unknown opcode, and a must-be-zero bit. -/
theorem test_wellFormed_word : wellFormedWord 0x05000000 = false ∧ wellFormedWord 0x01000080 = false ∧
    wellFormedWord 0x0100007F = true := by decide

/-- One byte past the end of each space. -/
theorem test_wellFormed_outside :
    (HostStore.vramByte 0x18000 1).malformed = some .outsideSpace ∧ (HostStore.vramHalf 0x18000 1).malformed = some .outsideSpace ∧
    (HostStore.palByte 0x400 1).malformed = some .outsideSpace ∧ (HostStore.palHalf 0x400 1).malformed = some .outsideSpace ∧
    (HostStore.oamHalf 0x400 1).malformed = some .outsideSpace ∧ (HostStore.vramByte 0x17FFF 1).malformed = none := by decide

/-- A 2-byte store at an odd address. -/
theorem test_wellFormed_misaligned :
    (HostStore.vramHalf 1 1).malformed = some .misaligned ∧ (HostStore.palHalf 0x3FF 1).malformed = some .misaligned ∧
    (HostStore.oamHalf 3 1).malformed = some .misaligned ∧ (HostStore.palHalf 0x3FE 1).malformed = none := by decide

/-- A row and a column that `OUT` does not have. -/
theorem test_wellFormed_out : (HostTxn.readOut 160 0).wellFormed = false ∧ (HostTxn.readOut 0 240).wellFormed = false ∧
    (HostTxn.readOut 159 239).wellFormed = true := by decide

/-! ### Test states -/

/-- The state that an outcome goes on with. -/
def after (o : Outcome) : State :=
  match o with
  | .next s => s
  | .fault _ => State.reset
  | .refused _ => State.reset

/-- Why an outcome stops. -/
def stopOf (o : Outcome) : Option Fault :=
  match o with
  | .next _ => none
  | .fault f => some f
  | .refused _ => none

/-- The reset state with other host-owned memories. -/
def onHost (f : HostMem → HostMem) : State := { State.reset with host := f State.reset.host }

/-- Stores one after another into the reset state's memories. -/
def stored (l : List HostStore) : State := onHost fun h => l.foldl (fun h st => putStore st h) h

/-- The state that commands lead to. -/
def run (l : List Instr) (s : State) : State := after (execAll l s)

/-- The sprite of the example of R160, marked drawn. -/
def spriteState : State :=
  run [.markDrawn 0] (stored [.oamField 0 (.palette 2), .oamField 0 (.priority 1), .vramByte 0x10000 0x31, .palHalf 0x242 0x1F])

/-- The map of the example of R180. -/
def tileState : State :=
  stored [.regField (.bgScreenBase 0 8), .regField (.bgHofs 0 3), .vramHalf 0x4002 0x1001, .vramByte 0x20 0x50,
    .palHalf 42 0x1234]

/-- The map of the example of R188. -/
def affineState : State :=
  { stored [.regField (.bgCharBase 2 1), .vramByte 1 3, .vramByte 0x40C9 7, .palHalf 14 0x0ABC] with
    acc := Tab.set (Vector.replicate 2 { x := 0, y := 0 }) 0#1 { x := 0x0980, y := 0x0100 } }

/-- The windows of the example of R210. -/
def windowState : State :=
  stored [.regField (.winEnable 0 true), .regField (.winLeft 0 10), .regField (.winRight 0 20), .regField (.winTop 0 5),
    .regField (.winBottom 0 15), .regField (.wininBg 0 0 true), .regField (.wininObj 0 true), .regField (.winoutBg 0 true),
    .regField (.winoutBg 1 true), .regField (.winoutBg 2 true), .regField (.winoutBg 3 true), .regField (.winoutBlend true)]

/-! ### One or two steps per command -/

/-- Example of R142. -/
theorem test_mark_drawn : let t := run [.markDrawn 0] State.reset
    bitOf t.colset[7] (0 : SlotNo) = true ∧ t.colset[8] = 0 ∧ bitOf t.rowset[7] (0 : SlotNo) = true ∧ t.rowset[8] = 0 ∧
    Tab.get t.objc (0 : SlotNo) = ⟨8, 8, 0, 0, 8, 8, 4, 4, 0, 8, 0, 8⟩ := by decide +kernel

/-- R149: x = -4 covers columns 0 to 3. -/
theorem test_mark_drawn_left : let t := run [.markDrawn 5] (stored [.oamField 5 (.x 0x1FC)])
    t.colset[3] = 32 ∧ t.colset[4] = 0 ∧ (Tab.get t.objc (5 : SlotNo)).rectX = -4 := by decide +kernel

/-- Example of R145. -/
theorem test_mark_hidden : let t := run [.markDrawn 0, .markHidden 0] State.reset
    t.colset[7] = 0 ∧ t.rowset[7] = 0 ∧ (Tab.get t.objc (0 : SlotNo)).texW = 0 ∧ (Tab.get t.objc (0 : SlotNo)).rectW = 8 := by
  decide +kernel

/-- Example of R147. -/
theorem test_query : (run [.markDrawn 0, .query 4 4] State.reset).qset = 1 ∧
    (run [.markDrawn 0, .query 8 4] State.reset).qset = 0 ∧ (run [.query 240 0] spriteState).qset = 0 := by decide +kernel

/-- Example of R148. -/
theorem test_qpop : let s := { State.reset with qset := 3 }
    packQRes (run [.qpop] s).qres = 0x80 ∧ packQRes (run [.qpop, .qpop] s).qres = 0x81 ∧
    packQRes (run [.qpop, .qpop, .qpop] s).qres = 0 := by decide +kernel

/-- Example of R160. -/
theorem test_smp_obj : packORes (run [.smpObj 0 0] spriteState).ores = 0x8801F ∧
    objIndex spriteState.host (Tab.get spriteState.host.oam (0 : SlotNo)) (Tab.get spriteState.objc (0 : SlotNo)) 1 0 = some 3 := by
  decide +kernel

/-- Example of R180. -/
theorem test_smp_tile : packBRes (run [.smpTile 0 6 0] tileState).bres = 0x9234 ∧
    packBRes (run [.smpTile 0 7 0] tileState).bres = 0 := by decide +kernel

/-- Example of R188, and its corner case (a). -/
theorem test_smp_aff : packBRes (run [.smpAff 0] affineState).bres = 0x8ABC ∧
    packBRes (run [.smpAff 0] { affineState with acc := Vector.replicate 2 { x := 0xFFFFFFFF, y := 0 } }).bres = 0 := by
  decide +kernel

/-- Example of R195; the last pixel of the frame and the column after it. -/
theorem test_smp_bmp3 : packBRes (run [.smpBmp3 2 1] (stored [.vramHalf 0x1E4 0xFFFF])).bres = 0xFFFF ∧
    packBRes (run [.smpBmp3 239 159] (stored [.vramHalf 0x12BFE 0x0001])).bres = 0x8001 ∧
    packBRes (run [.smpBmp3 240 159] State.reset).bres = 0 := by decide +kernel

/-- Example of R196; index 0 is transparent. -/
theorem test_smp_bmp4 :
    packBRes (run [.smpBmp4 0 0] (stored [.regField (.page true), .vramByte 0xA000 9, .palHalf 18 0x0123])).bres = 0x8123 ∧
    packBRes (run [.smpBmp4 0 0] State.reset).bres = 0 := by decide +kernel

/-- Example of R197. -/
theorem test_smp_bmp5 : packBRes (run [.smpBmp5 159 127] (stored [.vramHalf 0x9FFE 0x7FFF])).bres = 0xFFFF ∧
    packBRes (run [.smpBmp5 160 0] (stored [.vramHalf 0x140 0x7FFF])).bres = 0 := by decide +kernel

/-- Example of R210. -/
theorem test_win_eval : packMask (run [.winEval 10 5 false] windowState).wres = 0x11 ∧
    packMask (run [.winEval 20 5 false] windowState).wres = 0x2F ∧
    packMask (run [.winEval 20 5 true] State.reset).wres = 0x3F := by decide +kernel

/-- Example of R222. -/
theorem test_bld_reset : let t := run [.bldBackdrop 1, .bldReset] State.reset
    resultRegister t 16 = 0 ∧ resultRegister t 17 = 0xE38000 ∧ resultRegister t 18 = 0xE38000 := by decide +kernel

/-- Example of R223. -/
theorem test_bld_obj : resultRegister (run [.bldObj 0x001F 1 true] (stored [.regField (.targetA 4 true)])) 17 = 0x94801F ∧
    (run [.bldObj 0 4 false, .bldReset] State.reset).fault = 0b00100 := by decide +kernel

/-- Examples of R225 and R226: background 0 in slot 0, then demoted by background 1. -/
theorem test_bld_bg0_bg1 : let t := run [.bldBg0 0x03E0 2, .bldBg1 0x7C00 1] State.reset
    t.bu.slot0.color = 0x7C00 ∧ t.bu.slot0.layer = 1 ∧ t.bu.slot1.color = 0x03E0 ∧ t.bu.slot1.layer = 0 ∧
    t.bu.state = .bg1Added := by decide +kernel

/-- Corner case of R226: a second `BLD_BG1`. -/
theorem test_bld_bg1_twice : let t := run [.bldBg1 1 0, .bldBg1 2 0] State.reset
    t.fault = 0b00010 ∧ t.faultCmd = 0x13000002 ∧ t.bu.slot0.color = 1 := by decide +kernel

/-- Examples of R227 and R228, the tie-break property. -/
theorem test_bld_bg2_bg3 : let t := run [.bldBg2 0x001F 1, .bldBg3 0x03E0 1] State.reset
    t.bu.slot0.color = 0x001F ∧ t.bu.slot1.color = 0x03E0 ∧ t.bu.state = .bg3Added := by decide +kernel

/-- R229: corner cases (a) and (b). -/
theorem test_bld_backdrop : let t := run [.bldBackdrop 0x7FFF] State.reset
    let u := run [.bldBg0 1 0, .bldBg1 2 0, .bldBackdrop 3] State.reset
    t.bu.slot0.prio = 4 ∧ t.bu.slot1 = Layer.unset ∧ u.bu.slot0.color = 1 ∧ u.bu.slot1.color = 2 := by decide +kernel

/-- R230, R232: 31 and 0 with weights 8 and 0 is 15.5, which rounds to 16; a window without blending gives the top. -/
theorem test_bld_composite :
    let s := stored [.regField (.bldMode 1), .regField (.targetA 0 true), .regField (.targetB 5 true), .regField (.eva 8)]
    (run [.bldBg0 31 0, .bldBackdrop 0, .bldComposite true] s).cres = 16 ∧
    (run [.bldBg0 31 0, .bldBackdrop 0, .bldComposite false] s).cres = 31 := by decide +kernel

/-- Example of R270. -/
theorem test_acc_seed : (Tab.get (run [.accSeed] (stored [.regField (.affX 0 0xFFFFF00)])).acc 0#1).x = 0xFFFFFF00 := by
  decide +kernel

/-- Example of R271. -/
theorem test_acc_step : (Tab.get (run [.accSeed, .accStep] (stored [.regField (.affX 0 0xFFFFF00),
    .regField (.affPa 0 0x0100), .regField (.affPc 0 0xFFFF)])).acc 0#1) = { x := 0, y := 0xFFFFFFFF } := by decide +kernel

/-- Example of R276, and both faults at once (R294). -/
theorem test_render_row_blank :
    let s := { stored [.regField (.forcedBlank true)] with out := [(3 * 240 + 239, 5#16), (4 * 240, 6#16)] }
    outCell (run [.renderRow 3] s) 3 239 = 0 ∧ outCell (run [.renderRow 3] s) 4 0 = 6 ∧
    (run [.renderRow 160] (stored [.regField (.mode 6)])).fault = 0b11000 := by decide +kernel

/-- Pixels of a rendered row: texels 1 and 3 of the sprite of R160 (palette entry 35 is black), and the
backdrop under its transparent texel. -/
theorem test_render_row_pixel : let s := { spriteState with host := putStore (.palHalf 0 0x7C00) spriteState.host }
    (pixelColour 0 0 (accSeed s)).cres = 0x001F ∧ (pixelColour 1 0 (accSeed s)).cres = 0 ∧
    (pixelColour 2 0 (accSeed s)).cres = 0x7C00 := by decide +kernel

/-- Example of R253. -/
theorem test_start_frame : resultRegister (run [.startFrame] (stored [.regField (.bgEnable 0 true),
    .regField (.bgMosaic 0 true), .regField (.mosaicBgH 3)])) 20 = 0x1888 := by decide +kernel

/-- Example of R255. -/
theorem test_should_flush : let s := { State.reset with dirty := 1 }
    (run [.shouldFlush] s).flush = true ∧ (run [.shouldFlush] s).dirty = 0 ∧ (run [.shouldFlush, .shouldFlush] s).flush = false := by
  decide +kernel

/-! ### Ports -/

theorem test_bad_command : let t := after (step { State.reset with inbox := [.command 0x05000000] })
    t.fault = 1 ∧ t.faultCmd = 0x05000000 ∧ t.inbox = [] := by decide +kernel

theorem test_malformed_store_stops :
    stopOf (step { State.reset with inbox := [.store (.vramByte 0x18000 1)] }) = some .storeOutsideSpace ∧
    stopOf (step { State.reset with inbox := [.store (.palHalf 1 1)] }) = some .misalignedStore ∧
    stopOf (step { State.reset with inbox := [.readOut 160 0] }) = some .readOutsideOut := by decide +kernel

theorem test_read_port : (after (step { State.reset with inbox := [.readResult 19] })).readData = 0x1FFFFF ∧
    (after (step { State.reset with inbox := [.readResult 21] })).readData = 0 := by decide +kernel

/-- R110, R111: `aff_group` takes bits that the flips take too. -/
theorem test_raw_store : let a := Tab.get (stored [.oamHalf 10 0x3201]).host.oam (1 : SlotNo)
    a.x = 1 ∧ a.affGroup = 25 ∧ a.hflip = true ∧ a.vflip = true ∧
    (Tab.get (stored [.regWord 0x38 0x0FFFFF00]).host.reg.aff 1#1).x = 0xFFFFF00 := by decide +kernel

/-! ### States that meet the hypotheses of the statements

One theorem per statement with hypotheses, named after it; where the statement has clauses, a state for each clause, at
the edges of its range. -/

/-- The reset state with one transaction to come. -/
def issued (t : HostTxn) : State := { State.reset with inbox := [t] }

/-- A command word that the encoding forbids, with the fault state of an earlier one. -/
def faulted (t : HostTxn) : State := { issued t with fault := 0b00010, faultCmd := 0x13000002 }

theorem witness_EncodeDecode : decode 0x1A009F00 = .ok (.renderRow 159) := by decide

theorem witness_AssemblerSpellsEveryCommand : assemble "SMP_AFF" [3] = some (.smpAff 1) ∧
    sourceOperands (.smpAff 1) = [3] ∧ assemble "BLD_OBJ" [0x7FFF, 7, 1] = some (.bldObj 0x7FFF 7 true) ∧
    sourceOperands (.bldObj 0x7FFF 7 true) = [0x7FFF, 7, 1] := by decide

theorem witness_StepRunsDecodedCommand : (issued (.command 0x0100007F)).inbox = .command 0x0100007F :: [] ∧
    decode 0x0100007F = .ok (.markDrawn 127) ∧ decodeTableWord 32 0x21000000 = some .shouldFlush ∧
    State.reset.inbox = [] := by decide

theorem witness_IllegalWordRaisesBadCommand :
    ((issued (.command 0x05000000)).inbox = .command 0x05000000 :: [] ∧
      ∀ r ∈ opcodeTable, (0x05000000 : Word) &&& r.format.mask ≠ r.matchWord) ∧ State.reset.fault = 0 ∧
    ((faulted (.command 0x01000080)).inbox = .command 0x01000080 :: [] ∧
      ∀ r ∈ opcodeTable, (0x01000080 : Word) &&& r.format.mask ≠ r.matchWord) ∧
    (faulted (.command 0x01000080)).fault ≠ 0 := by decide

theorem witness_DirtyBitsChange : (issued (.dirtySet 0x100000)).inbox = .dirtySet 0x100000 :: [] ∧
    (∃ t, step { issued (.dirtySet 0x100000) with dirty := 0 } = .next t ∧ t.dirty ≠ 0) ∧
    (∃ t, step { issued (.reset LaunchMem.zero) with dirty := 0 } = .next t ∧ t.dirty ≠ 0) ∧
    (∃ t, step (issued (.command 0x21000000)) = .next t ∧ t.dirty ≠ State.reset.dirty) :=
  ⟨rfl, ⟨_, rfl, by decide⟩, ⟨_, rfl, by decide⟩, ⟨_, rfl, by decide +kernel⟩⟩

theorem reset_memory : MemoryInv State.reset := by constructor <;> decide

theorem witness_StorePort : (HostStore.regHalf 0x50 1).malformed = none ∧ MemoryInv State.reset ∧
    (issued (.store (.regField (.targetA 5 true)))).inbox = .store (.regField (.targetA 5 true)) :: [] ∧
    (issued (.store (.oamField 127 (.x 0x1FF)))).inbox = .store (.oamField 127 (.x 0x1FF)) :: [] ∧
    (issued (.store (.objAffField 31 (.pd 1)))).inbox = .store (.objAffField 31 (.pd 1)) :: [] ∧
    (0x17FFF < 0x18000 ∧ (issued (.store (.vramByte 0x17FFF 9))).inbox = .store (.vramByte 0x17FFF 9) :: []) ∧
    (0x17FFE < 0x18000 ∧ 0x17FFE % 2 = 0 ∧
      (issued (.store (.vramHalf 0x17FFE 9))).inbox = .store (.vramHalf 0x17FFE 9) :: []) ∧
    (0x3FF < 0x400 ∧ (issued (.store (.palByte 0x3FF 9))).inbox = .store (.palByte 0x3FF 9) :: []) ∧
    (0x3FE < 0x400 ∧ 0x3FE % 2 = 0 ∧ (issued (.store (.palHalf 0x3FE 9))).inbox = .store (.palHalf 0x3FE 9) :: []) :=
  ⟨rfl, reset_memory, rfl, rfl, rfl, by decide, by decide, by decide, by decide⟩

/-- Each ground for a stop at its first value, and the last value before it. -/
theorem witness_StopsOnMalformedOnly :
    stopOf (step (issued (.store (.vramByte 0x18000 1)))) = some .storeOutsideSpace ∧
    stopOf (step (issued (.store (.vramByte 0x17FFF 1)))) = none ∧
    stopOf (step (issued (.store (.palHalf 0x400 1)))) = some .storeOutsideSpace ∧
    stopOf (step (issued (.store (.palByte 0x3FF 1)))) = none ∧
    stopOf (step (issued (.store (.oamHalf 0x401 1)))) = some .storeOutsideSpace ∧
    stopOf (step (issued (.store (.oamHalf 0x3FF 1)))) = some .misalignedStore ∧
    stopOf (step (issued (.store (.vramHalf 0x17FFF 1)))) = some .misalignedStore ∧
    stopOf (step (issued (.readOut 159 240))) = some .readOutsideOut ∧
    stopOf (step (issued (.readOut 160 239))) = some .readOutsideOut ∧
    stopOf (step (issued (.readOut 159 239))) = none ∧ stopOf (step (issued (.command 0xFFFFFFFF))) = none := by
  decide +kernel

theorem witness_RawRegWordIsItsFields : 0x4E = 0x4E ∧ 0x56 ≤ 0x56 ∧ 0x39 % 2 = 1 := by decide

theorem witness_ResultReadPort : [0, 7, 8, 11, 12, 16, 17, 18, 20, 21].all (fun r =>
    (issued (.readResult r)).inbox == [.readResult r]) = true ∧
    ((issued (.readOut 159 239)).inbox = .readOut 159 239 :: [] ∧ 159 < 160 ∧ 239 < 240) := by decide

theorem witness_ResetValues : (issued (.reset { LaunchMem.zero with out := [(1, 2#16)] })).inbox =
    .reset { LaunchMem.zero with out := [(1, 2#16)] } :: [] := rfl

/-! #### Invariants -/

/-- In the sprite state slot 0 is drawn at the origin and no other slot is drawn. -/
theorem sprite_cache : ∀ o : SlotNo, Tab.get spriteState.objc o =
    if o = 0#7 then ⟨8, 8, 0, 0, 8, 8, 4, 4, 0, 8, 0, 8⟩ else ObjCache.zero := by decide +kernel

theorem sprite_cols : ∀ (x : Nat) (h : x < 240), spriteState.colset[x] = if x < 8 then 1#128 else 0#128 := by
  decide +kernel

theorem sprite_rows : ∀ (y : Nat) (h : y < 160), spriteState.rowset[y] = if y < 8 then 1#128 else 0#128 := by
  decide +kernel

theorem bitOf_one : ∀ o : SlotNo, bitOf 1#128 o = decide (o = 0#7) := by decide +kernel

theorem sprite_visibility : VisibilityInv spriteState := by
  constructor
  · intro slot x h
    rw [sprite_cols x h, sprite_cache]
    by_cases h0 : slot = 0#7 <;> by_cases h8 : x < 8 <;> simp [h0, h8, bitOf_one, ObjCache.zero]
  · intro slot y h
    rw [sprite_rows y h, sprite_cache]
    by_cases h0 : slot = 0#7 <;> by_cases h8 : y < 8 <;> simp [h0, h8, bitOf_one, ObjCache.zero]

theorem reset_visibility : VisibilityInv State.reset := by
  constructor <;> intro slot x h <;> simp [State.reset, State.launch, Tab.get, ObjCache.zero]

/-- A drawn slot, and a command that hides it. -/
theorem witness_VisibilityInvKept : VisibilityInv { spriteState with inbox := [.command 0x02000000] } ∧
    ∃ t, step { spriteState with inbox := [.command 0x02000000] } = .next t :=
  ⟨⟨sprite_visibility.cols, sprite_visibility.rows⟩, _, rfl⟩

/-- Backgrounds 0 and 1 added, in slots 1 and 0. -/
def blendState : State := run [.bldBg0 0x03E0 2, .bldBg1 0x7C00 1] State.reset

theorem blend_inv : BlendInv blendState := by
  constructor
  · exact .inr (.inl (by decide +kernel))
  · exact .inr (.inl (by decide +kernel))
  · decide +kernel
  · decide +kernel
  · exact fun h => absurd h (by decide +kernel)

theorem reset_blend : BlendInv State.reset := by
  constructor <;> first | exact .inl rfl | decide

/-- A background is offered between the two. -/
theorem witness_BlendInvKept : BlendInv { blendState with inbox := [.command 0x14008000] } ∧
    ∃ t, step { blendState with inbox := [.command 0x14008000] } = .next t :=
  ⟨⟨blend_inv.slot0, blend_inv.slot1, blend_inv.ranked, blend_inv.filled, blend_inv.distinct⟩, _, rfl⟩

theorem witness_MemoryInvKept : MemoryInv (issued (.store (.palHalf 0x3FE 9))) ∧
    ∃ t, step (issued (.store (.palHalf 0x3FE 9))) = .next t :=
  ⟨by constructor <;> decide, _, rfl⟩

theorem sprite_cacheInv : CacheInv spriteState := by
  intro o
  rw [sprite_cache]
  by_cases h : o = 0#7
  · rw [if_pos h]; constructor <;> decide
  · rw [if_neg h]; constructor <;> decide

/-- A snapshot of mode 0, and the results of a pop and of a composited pixel. -/
def resultState : State :=
  run [.startFrame, .bldBackdrop 0x7FFF, .bldComposite true, .qpop]
    { stored [.regField (.bgEnable 0 true), .regField (.bgMosaic 0 true), .regField (.mosaicBgH 3)] with qset := 2 }

theorem witness_RegisterInvKept : CacheInv { spriteState with inbox := [.command 0x02000000] } ∧
    SnapInv { resultState with inbox := [.command 0x04000000] } ∧
    ResultInv { resultState with inbox := [.command 0x04000000] } ∧ FaultInv (issued (.command 0x05000000)) ∧
    (∃ t, step { spriteState with inbox := [.command 0x02000000] } = .next t) ∧
    (∃ t, step { resultState with inbox := [.command 0x04000000] } = .next t) ∧
    ∃ t, step (issued (.command 0x05000000)) = .next t :=
  ⟨sprite_cacheInv, by constructor <;> decide +kernel, by constructor <;> decide +kernel, fun _ => rfl, ⟨_, rfl⟩,
    ⟨_, rfl⟩, _, rfl⟩

/-! #### Faults and the mode -/

/-- Each condition, and its last operand or state that does not meet it. -/
theorem witness_FaultsArePrecise :
    FaultApplies blendState (.bldBg1 0 0) 1 ∧ (∀ n, ¬FaultApplies blendState (.bldBg2 0 3) n) ∧
    FaultApplies State.reset (.bldObj 0 4 false) 2 ∧
    FaultApplies (stored [.regField (.mode 6)]) .startFrame 3 ∧
    FaultApplies State.reset (.renderRow 160) 4 ∧ decode 0x1A00A000 = .ok (.renderRow 160) ∧
    (∀ i, decode 0x05000000 ≠ .ok i) ∧
    (∀ n, ¬FaultApplies (stored [.regField (.mode 5)]) (.renderRow 159) n) := by
  refine ⟨.inl ⟨rfl, ?_⟩, ?_, .inr (.inl ⟨rfl, 4, rfl, by decide⟩), .inr (.inr (.inl ⟨rfl, .inl rfl, by decide +kernel⟩)),
    .inr (.inr (.inr ⟨rfl, 160, rfl, by decide⟩)), by decide, ?_, ?_⟩
  · simp only [LegalIn]; decide +kernel
  · rintro n (⟨-, h⟩ | ⟨-, p, h, hp⟩ | ⟨-, h, -⟩ | ⟨-, y, h, -⟩)
    · exact h (by simp only [LegalIn]; decide +kernel)
    · simp only [prioOperand, Option.some.injEq] at h
      subst h
      exact absurd hp (by decide)
    · simp [NeedsMode] at h
    · simp at h
  · intro i h
    rw [show decode 0x05000000 = .error .unknownOpcode from by decide] at h
    cases h
  · rintro n (⟨-, h⟩ | ⟨-, p, h, -⟩ | ⟨-, -, h⟩ | ⟨-, y, h, hy⟩)
    · exact h trivial
    · simp [prioOperand] at h
    · exact absurd h (by decide +kernel)
    · cases h
      exact absurd hy (by decide)

/-- A second fault after a first, and a first fault. -/
theorem witness_FaultsAreSticky :
    (isReset (.command 0x05000000) = false ∧ (faulted (.command 0x05000000)).fault.getLsbD 1 = true ∧
      ∃ t, step (faulted (.command 0x05000000)) = .next t ∧ t.fault ≠ (faulted (.command 0x05000000)).fault) ∧
    ∃ t, step (issued (.command 0x1A00A000)) = .next t ∧ t.fault ≠ State.reset.fault :=
  ⟨⟨rfl, by decide, _, rfl, by decide⟩, _, rfl, by decide +kernel⟩

theorem witness_ModeReaders :
    (NeedsMode (.renderRow 3) ∧ NeedsMode .startFrame ∧ NeedsMode .shouldFlush ∧
      (stored [.regField (.mode 6)]).host.reg.dispcnt.mode = 6 ∧ (stored [.regField (.mode 7)]).host.reg.dispcnt.mode = 7) ∧
    (¬NeedsMode (.smpObj 0 0) ∧ bitmapMode 7 = bitmapMode spriteState.host.reg.dispcnt.mode ∧
      bitmapMode 2 = bitmapMode spriteState.host.reg.dispcnt.mode ∧ ∃ t, exec (.smpObj 0 0) spriteState = .next t) ∧
    ¬NeedsMode (.smpBmp3 0 0) ∧ ∃ t, exec (.smpBmp3 0 0) State.reset = .next t :=
  ⟨⟨.inr (.inr ⟨3, rfl⟩), .inl rfl, .inr (.inl rfl), by decide +kernel, by decide +kernel⟩,
    ⟨by simp [NeedsMode], by decide +kernel, by decide +kernel, _, rfl⟩, by simp [NeedsMode], _, rfl⟩

theorem witness_CommandsLeaveHostState : ∃ t, exec (.renderRow 159) spriteState = .next t := ⟨_, rfl⟩

theorem witness_WritersOfState : ∃ t, exec (.markDrawn 0) State.reset = .next t ∧
    (Tab.get t.objc (0 : SlotNo)).texW ≠ (Tab.get State.reset.objc (0 : SlotNo)).texW := ⟨_, rfl, by decide +kernel⟩

/-! #### The visibility index -/

/-- The three grounds for doing nothing; a slot that is filled; and both sides of the choice of the top edge. -/
theorem witness_MarkDrawnResult :
    (Tab.get spriteState.objc (0 : SlotNo)).texW ≠ 0 ∧
    (let a := Tab.get (stored [.oamField 0 (.doubleSize true)]).host.oam (0 : SlotNo); a.affine = false ∧ a.doubleSize = true) ∧
    (Tab.get (stored [.oamField 0 (.shape 3)]).host.oam (0 : SlotNo)).shape = 3 ∧
    (let a := Tab.get (stored [.oamField 127 (.y 0xF8)]).host.oam (127 : SlotNo)
     ¬((Tab.get State.reset.objc (127 : SlotNo)).texW ≠ 0 ∨ (a.affine = false ∧ a.doubleSize = true) ∨ a.shape = 3) ∧
     a.y.toInt + (8 : Nat) ≤ 0) ∧
    ¬((0xF9#8).toInt + (8 : Nat) ≤ 0) := by decide +kernel

theorem witness_MarkHiddenEmptiesSlot : (Tab.get State.reset.objc (127 : SlotNo)).texW = 0 ∧
    (Tab.get spriteState.objc (0 : SlotNo)).texW ≠ 0 ∧ VisibilityInv spriteState :=
  ⟨by decide +kernel, by decide +kernel, sprite_visibility⟩

theorem witness_HideUndoesDraw : VisibilityInv spriteState ∧ (Tab.get spriteState.objc (127 : SlotNo)).texW = 0 ∧
    ∃ t, exec (.markDrawn 127) spriteState = .next t := ⟨sprite_visibility, by decide +kernel, _, rfl⟩

/-- The last point of the sprite, and the point after it. -/
theorem witness_QueryLoadsIntersection : VisibilityInv spriteState ∧ Covers spriteState 7 7 0 ∧
    ¬Covers spriteState 8 7 0 ∧ ¬Covers spriteState 240 0 0 := by
  refine ⟨sprite_visibility, ⟨by decide, by decide, by decide +kernel⟩, ?_, ?_⟩
  · rintro ⟨hx, -, h, -⟩
    rw [sprite_cols 8 hx] at h
    exact absurd h (by decide)
  · rintro ⟨hx, -, -⟩
    exact absurd hx (by decide)

theorem witness_QpopRemovesLowest : State.reset.qset = 0 ∧ { State.reset with qset := 1#128 <<< 127 }.qset ≠ 0 ∧
    bitOf (1#128 <<< 127) (127 : SlotNo) = true := by decide

/-! #### The sprite pixel sampler -/

theorem sprite_only (x y : Nat) (o : SlotNo) (h : Covers spriteState x y o) : o = 0#7 := by
  obtain ⟨hx, -, h, -⟩ := h
  rw [sprite_cols x hx] at h
  by_contra hne
  by_cases h8 : x < 8 <;> simp [h8, bitOf_one, hne] at h

/-- Slot 0 is drawable at the origin and beats every drawable slot; beside the sprite nothing is found. -/
theorem witness_SmpObjWinner : DrawableAt spriteState 0 0 0#7 1 ∧
    (∀ o idx, DrawableAt spriteState 0 0 o idx → Beats spriteState 0#7 o) ∧
    (run [.smpObj 8 0] spriteState).ores.found = false ∧
    ∃ s : State, OpaqueAt s 0 0 0#7 1 ∧ (Tab.get s.host.oam 0#7).gfxMode = 2 := by
  refine ⟨⟨⟨⟨by decide, by decide, by decide +kernel⟩, by decide +kernel⟩, by decide +kernel⟩, ?_, by decide +kernel,
    { spriteState with host := putStore (.oamField 0 (.gfxMode 2)) spriteState.host },
    ⟨⟨by decide, by decide, by decide +kernel⟩, by decide +kernel⟩, by decide +kernel⟩
  intro o idx h
  have := sprite_only 0 0 o h.1.1
  subst this
  exact .inr ⟨rfl, by decide⟩

/-- The cached geometry of an 8 by 8 sprite at the origin. -/
def cache8 : ObjCache := ⟨8, 8, 0, 0, 8, 8, 4, 4, 0, 8, 0, 8⟩

/-- The matrix of scale 1. -/
def identityAff : ObjAffine := { pa := 0x0100, pb := 0, pc := 0, pd := 0x0100 }

/-- Inside at 0 and 7 and outside at 8, without and with an affine group (its group scales by 1). -/
theorem witness_ObjTexelAddress :
    (ObjAttr.zero.affine = false ∧ (0 : Int) ≤ 7 - cache8.rectX ∧ (7 : Int) - cache8.rectX < cache8.texW ∧
      ¬(8 : Int) - cache8.rectX < cache8.texW) ∧
    { ObjAttr.zero with affine := true }.affine = true ∧
    (let t (x y : Int) : Int := ((identityAff.pa.toInt * (x - cache8.cx) + identityAff.pb.toInt * (y - cache8.cy)) >>> (8 : Nat))
        + (cache8.texW >>> 1 : Nat)
     t 0 0 = 0 ∧ t 7 7 = 7 ∧ t 8 7 = 8) := by decide

theorem witness_IdentityAffineIsPlain : ∃ (h : HostMem) (a : ObjAttr), a.affine = true ∧ a.doubleSize = false ∧
    a.hflip = false ∧ a.vflip = false ∧ Tab.get h.objAff a.affGroup = identityAff :=
  ⟨{ State.reset.host with objAff := Vector.replicate 32 identityAff }, { ObjAttr.zero with affine := true }, rfl, rfl, rfl,
    rfl, by decide +kernel⟩

/-- Two states that differ in the position that `OAM` holds of a candidate, in the other slots, in the sets of other columns,
in the clipped bounds of the cache and in background memory. -/
theorem witness_SmpObjReadsOnlyItsInputs : let s := spriteState
    let c := Tab.get s.objc 0#7
    let s' : State := { s with
      host := putStore (.vramByte 0xFFFF 1) (putStore (.oamField 0 (.y 9)) (putStore (.oamField 1 (.tile 9)) s.host))
      colset := s.colset.set 8 2#128
      objc := Tab.set s.objc 0#7 { c with clipX1 := 3 } }
    Covers s 7 7 0#7 ∧ s.colset[7] = s'.colset[7] ∧ s.rowset[7] = s'.rowset[7] ∧ s.host.objAff = s'.host.objAff ∧
    s.host.reg = s'.host.reg ∧
    (∀ a, 0x10000 ≤ a → a < 0x18000 → Memory.read s.host.vram a = Memory.read s'.host.vram a) ∧
    (∀ a, 0x200 ≤ a → a < 0x400 → Memory.read s.host.pal a = Memory.read s'.host.pal a) ∧
    (∀ n : SlotNo, Covers s 7 7 n →
      (∃ rw rh x0 x1 y0 y1, Tab.get s'.objc n = { Tab.get s.objc n with
        rectW := rw, rectH := rh, clipX0 := x0, clipX1 := x1, clipY0 := y0, clipY1 := y1 }) ∧
      ∃ yy xx ds sh sz, Tab.get s'.host.oam n =
        { Tab.get s.host.oam n with y := yy, x := xx, doubleSize := ds, shape := sh, size := sz }) := by
  refine ⟨⟨by decide, by decide, by decide +kernel⟩, by decide +kernel, by decide +kernel, rfl, rfl, ?_, fun _ _ _ => rfl, ?_⟩
  · intro a h _
    exact (Memory.read_write spriteState.host.vram 0xFFFF a 1 (by decide +kernel)).symm ▸ by
      rw [if_neg (by omega)]
  · intro n h
    have := sprite_only 7 7 n h
    subst this
    exact ⟨⟨8, 8, 0, 3, 0, 8, by decide +kernel⟩, 9, 0, false, 0, 0, by decide +kernel⟩

/-! #### The background samplers -/

/-- The map entry and the texel of the example of R180, opaque; beside it the texel is transparent. -/
theorem witness_SmpTileResult : Memory.readHalf tileState.host.vram 0x4002 = 0x1001 ∧ 0x4002 < 0x10000 ∧
    texelIndex tileState.host.vram 0x20 false 1 0 bgRegion = some 5 ∧
    (run [.smpTile 0 6 0] tileState).bres.valid = true ∧ (run [.smpTile 0 7 0] tileState).bres.valid = false := by
  decide +kernel

theorem witness_SmpAffResult : (run [.smpAff 0] affineState).bres.valid = true ∧
    (run [.smpAff 1] State.reset).bres.valid = false := by decide +kernel

theorem witness_SmpBitmapResults :
    (run [.smpBmp3 239 159] State.reset).bres.valid = true ∧ (run [.smpBmp3 240 159] State.reset).bres.valid = false ∧
    (run [.smpBmp4 239 159] (stored [.vramByte 0x95FF 1])).bres.valid = true ∧
    (run [.smpBmp4 239 160] (stored [.vramByte 0x95FF 1])).bres.valid = false ∧
    (run [.smpBmp5 159 127] State.reset).bres.valid = true ∧ (run [.smpBmp5 159 128] State.reset).bres.valid = false := by
  decide +kernel

/-- Memories that differ in the first byte that the samplers do not read. -/
theorem witness_BgSamplersReadOnlyTheirRegion : ∃ h h' : HostMem, h.reg = h'.reg ∧ h.vram ≠ h'.vram ∧ h.pal ≠ h'.pal ∧
    (∀ a < 0x200, Memory.read h.pal a = Memory.read h'.pal a) ∧
    (∀ a < 0x10000, Memory.read h.vram a = Memory.read h'.vram a) ∧
    ∀ a < 0x14000, Memory.read h.vram a = Memory.read h'.vram a := by
  refine ⟨State.reset.host, { State.reset.host with vram := [(0x14000, 1)], pal := [(0x200, 1)] }, rfl, by decide, by decide,
    ?_, ?_, ?_⟩ <;> intro a h <;>
    simp [State.reset, State.launch, HostMem.canon, LaunchMem.zero, Memory.canon, Memory.read, Memory.unlisted] <;> omega

/-! #### The window / mask evaluator -/

/-- No window; the first and the last point of window 0; the point after it, in window 1, in the object window, in none. -/
theorem witness_WinEvalFirstMatch :
    (State.reset.host.reg.dispcnt.winEnable = 0 ∧ State.reset.host.reg.dispcnt.objwinEnable = false) ∧
    windowHolds windowState.host.reg 0#1 10 5 = true ∧ windowHolds windowState.host.reg 0#1 19 14 = true ∧
    windowHolds windowState.host.reg 0#1 20 14 = false ∧
    (let r := putRegField (.winEnable 1 true) (putRegField (.winRight 1 30) (putRegField (.winBottom 1 30) windowState.host.reg))
     windowHolds r 0#1 20 14 = false ∧ windowHolds r 1#1 20 14 = true ∧ windowHolds r 1#1 30 14 = false) ∧
    (putRegField (.objwinEnable true) windowState.host.reg).dispcnt.objwinEnable = true := by decide +kernel

/-! #### The priority and blend engine -/

theorem witness_BldResetAndObject : State.reset.bu.state = .reset ∧ (3 : BitVec 3) ≤ 3 := by decide

/-- Each background from a state that allows it; the three places a layer can go. -/
theorem witness_BldBackgroundTakesSlot : LegalIn State.reset.bu.state (.bldBg0 0 3) ∧
    LegalIn State.reset.bu.state (.bldBg1 0 3) ∧ LegalIn blendState.bu.state (.bldBg2 0 3) ∧
    LegalIn blendState.bu.state (.bldBg3 0 3) ∧ (3 : BitVec 3) ≤ 3 ∧
    (0 : BitVec 3) < blendState.bu.slot0.prio ∧
    (blendState.bu.slot0.prio ≤ 1 ∧ (1 : BitVec 3) < blendState.bu.slot1.prio) ∧
    (blendState.bu.slot0.prio ≤ 2 ∧ blendState.bu.slot1.prio ≤ 2) :=
  ⟨.inl rfl, .inl rfl, by simp only [LegalIn]; decide +kernel, by simp only [LegalIn]; decide +kernel, by decide +kernel⟩

theorem witness_BldBackdropFillsUnsetSlot :
    (State.reset.bu.state ≠ .backdropAdded ∧ State.reset.bu.state ≠ .composited ∧ State.reset.bu.slot0.prio = 7) ∧
    (let s := run [.bldBg0 1 0] State.reset
     s.bu.state ≠ .backdropAdded ∧ s.bu.state ≠ .composited ∧ s.bu.slot0.prio ≠ 7 ∧ s.bu.slot1.prio = 7) ∧
    (blendState.bu.state ≠ .backdropAdded ∧ blendState.bu.state ≠ .composited ∧ blendState.bu.slot0.prio ≠ 7 ∧
      blendState.bu.slot1.prio ≠ 7) := by decide +kernel

/-- A background of both targets over a backdrop of both, in a blend mode. -/
def compositeState (mode : BitVec 2) : State :=
  run [.bldBg0 31 0, .bldBackdrop 0] (stored [.regField (.bldMode mode), .regField (.targetA 0 true),
    .regField (.targetB 5 true), .regField (.eva 16), .regField (.evb 31), .regField (.evy 17)])

/-- Alpha, brighten, darken and none; a forced blend. -/
theorem witness_BldCompositeResult :
    [0, 1, 2, 3].all (fun m : BitVec 2 => let s := compositeState m
      s.bu.state == .backdropAdded && s.host.reg.bldcnt.mode == m && s.bu.slot0.tgtA && s.bu.slot1.tgtB &&
      !s.bu.slot0.blendedObj && !s.bu.slot1.blendedObj) = true ∧
    (let s := run [.bldObj 31 0 true, .bldBackdrop 0] (stored [.regField (.targetA 4 true), .regField (.targetB 5 true)])
     s.bu.state = .backdropAdded ∧ s.bu.slot0.blendedObj = true ∧ s.bu.slot0.tgtA = true ∧ s.bu.slot1.tgtB = true) := by
  decide +kernel

theorem witness_IdentityWeightsPreserveColour : State.reset.host.reg.bldcnt.mode = 0 ∧
    (stored [.regField (.bldMode 2)]).host.reg.bldcnt.mode = 2 ∧ (stored [.regField (.bldMode 2)]).host.reg.evy = 0 ∧
    (stored [.regField (.bldMode 3)]).host.reg.bldcnt.mode = 3 ∧ (stored [.regField (.bldMode 3)]).host.reg.evy = 0 := by
  decide +kernel

/-- Background 2 can be skipped at priority 2, slot 1's own, and at 3; background 3 follows. -/
theorem witness_PrioritySkip : BlendInv blendState ∧ LegalIn blendState.bu.state (addCommand 2 ⟨1, 3⟩) ∧
    blendState.bu.slot1.prio ≤ (2 : BitVec 2).setWidth 3 ∧ ¬blendState.bu.slot1.prio ≤ (1 : BitVec 2).setWidth 3 ∧
    ((2 : BitVec 2) :: [((3 : BitVec 2), (⟨5, 0⟩ : Sample))].map (·.1)).Pairwise (· < ·) :=
  ⟨blend_inv, .inr (.inr (.inr (by decide +kernel))), by decide +kernel, by decide +kernel, by decide⟩

/-! #### The row compositor and the dirty tracker -/

theorem witness_BlankRow : let s := stored [.regField (.mode 5), .regField (.forcedBlank true)]
    (159#8).toNat < 160 ∧ s.host.reg.dispcnt.mode ≤ 5 ∧ s.host.reg.dispcnt.forcedBlank = true ∧ Memory.wf s.out := by
  decide +kernel

theorem witness_RenderRowWrites : let s := { stored [.regField (.mode 5)] with out := [(0, 1#16), (38399, 2#16)] }
    (159#8).toNat < 160 ∧ s.host.reg.dispcnt.mode ≤ 5 ∧ s.host.reg.dispcnt.forcedBlank = false ∧ Memory.wf s.out := by
  decide +kernel

theorem witness_RenderRowIsItsCommands : (159#8).toNat < 160 ∧ spriteState.host.reg.dispcnt.mode ≤ 5 ∧
    spriteState.host.reg.dispcnt.forcedBlank = false := by decide +kernel

/-- Two states that agree on what a row depends on and differ in results, blend unit, faults and `OUT`. -/
theorem witness_RowDependsOnInputsOnly :
    let s' := { State.reset with ores := (run [.smpObj 0 0] spriteState).ores, bu := blendState.bu, fault := 3, out := [(0, 1#16)] }
    (159#8).toNat < 160 ∧ State.reset.host.reg.dispcnt.mode ≤ 5 ∧ Memory.wf State.reset.out ∧ Memory.wf s'.out ∧
    State.reset.host = s'.host ∧ State.reset.colset = s'.colset ∧ State.reset.rowset = s'.rowset ∧
    State.reset.objc = s'.objc ∧ State.reset.ores ≠ s'.ores :=
  ⟨by decide, by decide, by decide, by decide, rfl, rfl, rfl, rfl, by decide +kernel⟩

theorem witness_RowsInAnyOrder : (0#8).toNat < 160 ∧ (159#8).toNat < 160 ∧ State.reset.host.reg.dispcnt.mode ≤ 5 ∧
    MemoryInv State.reset := ⟨by decide, by decide, by decide, reset_memory⟩

theorem witness_RenderFrameIsEveryRow : (stored [.regField (.mode 5)]).host.reg.dispcnt.mode ≤ 5 ∧
    MemoryInv (stored [.regField (.mode 5)]) := ⟨by decide +kernel, by constructor <;> decide +kernel⟩

theorem witness_BackdropRow : (159#8).toNat < 160 ∧ State.reset.host.reg.dispcnt.mode ≤ 5 ∧
    State.reset.host.reg.dispcnt.forcedBlank = false ∧ Memory.wf State.reset.out ∧ VisibilityInv State.reset ∧
    State.reset.host.reg.dispcnt.bgEnable = 0 ∧ (∀ n : SlotNo, (Tab.get State.reset.objc n).texW = 0) ∧
    State.reset.host.reg.bldcnt.targetA.getLsbD 5 = false :=
  ⟨by decide, by decide, by decide, by decide, reset_visibility, by decide, by decide +kernel, by decide⟩

theorem witness_StartFrameTakesSnapshot : State.reset.host.reg.dispcnt.mode ≤ 5 ∧
    (stored [.regField (.mode 5)]).host.reg.dispcnt.mode ≤ 5 := by decide +kernel

theorem obj_bit_irrelevant (reg : Reg) (hm : reg.dispcnt.mode = 5) (hp : reg.dispcnt.page = false) :
    ¬RelevantBit reg 20 := by simp [RelevantBit, hm, hp]

/-- A relevant bit that is dirty, one that is not relevant, and a tag that differs from the snapshot's. -/
theorem witness_ShouldFlushAnswer : let s := stored [.regField (.mode 5), .regField (.bgEnable 2 true)]
    s.host.reg.dispcnt.mode ≤ 5 ∧ s.dirty.getLsbD 18 = true ∧ RelevantBit s.host.reg 18 ∧ ¬RelevantBit s.host.reg 20 ∧
    s.host.reg.dispcnt.mode ≠ s.snap.tag := by
  refine ⟨by decide +kernel, by decide +kernel, ?_, ?_, by decide +kernel⟩
  · exact .inr (.inr (.inr (.inr (.inr (.inr (.inr (.inr (by decide +kernel))))))))
  · exact obj_bit_irrelevant _ (by decide +kernel) (by decide +kernel)

theorem witness_FlushIsNotRetried : LaunchMem.zero.host.reg.dispcnt.mode ≤ 5 ∧ State.reset.host.reg.dispcnt.mode ≤ 5 ∧
    ∃ t, exec .shouldFlush State.reset = .next t := ⟨by decide, by decide, _, rfl⟩
end Sys2Proof.Tests
end

section
/-! PROOFS. What a command and a step can do, said once: every command has a next state, `RENDER_ROW` is made of the
commands of its pixels (R275), and a step takes one transaction. The invariants follow from these cases. -/

namespace Sys2Proof.Machine

/-! ### Every command has a next state (R301) -/

/-- The next state of a command. -/
def execNext : Instr → State → State
  | .markDrawn slot, s => markDrawn slot s
  | .markHidden slot, s => markHidden slot s
  | .query x y, s => query x y s
  | .qpop, s => qpop s
  | .smpObj x y, s => smpObj x y s
  | .smpTile bg x y, s => smpTile bg x y s
  | .smpAff k, s => smpAff k s
  | .smpBmp3 x y, s => smpBmp3 x y s
  | .smpBmp4 x y, s => smpBmp4 x y s
  | .smpBmp5 x y, s => smpBmp5 x y s
  | .winEval x y ow, s => winEval x y ow s
  | .bldReset, s => bldReset s
  | .bldObj color prio semi, s => bldObj color prio semi s
  | .bldBg0 color prio, s => bldBg0 color prio s
  | .bldBg1 color prio, s => bldBg1 color prio s
  | .bldBg2 color prio, s => bldBg2 color prio s
  | .bldBg3 color prio, s => bldBg3 color prio s
  | .bldBackdrop color, s => bldBackdrop color s
  | .bldComposite blendEn, s => bldComposite blendEn s
  | .accSeed, s => accSeed s
  | .accStep, s => accStep s
  | .renderRow y, s => renderRow y s
  | .startFrame, s => startFrame s
  | .shouldFlush, s => shouldFlush s

theorem exec_eq_next (i : Instr) (s : State) : exec i s = .next (execNext i s) := by
  cases i <;> rfl

theorem eq_execNext_of_exec {i : Instr} {s t : State} (h : exec i s = .next t) : t = execNext i s := by
  rw [exec_eq_next] at h
  cases h
  rfl

/-! ### What the branching commands can do -/

/-- What holds of the command's effect, and of the state with a fault taken, holds after a guarded command. -/
theorem guarded_keeps {P : State → Prop} {bits : FaultSet} {i : Instr} {s s' : State} (hdone : bits = 0#5 → P s')
    (hfault : bits ≠ 0#5 → P (raise bits (encode i) s)) : P (guarded bits i s s') := by
  rcases guarded_cases bits i s s' with ⟨hb, h⟩ | ⟨hb, h⟩ <;> rw [h]
  · exact hdone hb
  · exact hfault hb

/-- `MARK_DRAWN` does nothing, or fills a hidden slot with the geometry of a shape that is not reserved (R142). -/
theorem markDrawn_cases (slot : SlotNo) (s : State) :
    markDrawn slot s = s ∨
    ((Tab.get s.objc slot).texW = 0 ∧ (geometry (Tab.get s.host.oam slot)).texW ≠ 0 ∧
      markDrawn slot s = fillSlot slot (geometry (Tab.get s.host.oam slot)) s) := by
  by_cases h : markDrawnSkips (Tab.get s.host.oam slot) (Tab.get s.objc slot) = true
  · exact .inl (by simp [markDrawn, h])
  · have hskips := h
    simp only [markDrawnSkips, drawn, Bool.or_eq_true, bne_iff_ne, beq_iff_eq, not_or, not_not] at hskips
    obtain ⟨⟨hhidden, -⟩, hshape⟩ := hskips
    exact .inr ⟨hhidden, hshape, by simp [markDrawn, h]⟩

/-- The sets and the cache entry of slot `slot`, whose cached geometry is `c`, emptied (R145). -/
def clearSlot (slot : SlotNo) (c : ObjCache) (s : State) : State :=
  { s with
    colset := overRange (removeSlot slot) c.clipX0 c.clipX1 s.colset
    rowset := overRange (removeSlot slot) c.clipY0 c.clipY1 s.rowset
    objc := Tab.set s.objc slot { c with texW := 0, texH := 0 } }

/-- `MARK_HIDDEN` does nothing on a hidden slot and empties a drawn one (R145). -/
theorem markHidden_cases (slot : SlotNo) (s : State) :
    markHidden slot s = s ∨
    ((Tab.get s.objc slot).texW ≠ 0 ∧ markHidden slot s = clearSlot slot (Tab.get s.objc slot) s) := by
  by_cases h : (Tab.get s.objc slot).texW = 0
  · exact .inl (by simp [markHidden, drawn, h])
  · exact .inr ⟨h, by simp [markHidden, drawn, h, clearSlot]⟩

/-- `QPOP` reports a member and removes it, or reports that there is none (R148). -/
theorem qpop_cases (s : State) :
    qpop s = { s with qres := { valid := false, slot := 0 } } ∨
    ∃ slot, qpop s = { s with qset := removeSlot slot s.qset, qres := { valid := true, slot := slot } } := by
  rw [qpop]
  cases lowest s.qset with
  | none => exact .inl rfl
  | some slot => exact .inr ⟨slot, rfl⟩

/-! ### `RENDER_ROW` is made of the commands of its pixels (R275, R276) -/

/-- The commands that a row is made of. -/
def inRow : Instr → Bool
  | .smpObj _ _ | .smpTile _ _ _ | .smpAff _ | .smpBmp3 _ _ | .smpBmp4 _ _ | .smpBmp5 _ _ | .winEval _ _ _ | .bldReset
  | .bldObj _ _ _ | .bldBg0 _ _ | .bldBg1 _ _ | .bldBg2 _ _ | .bldBg3 _ _ | .bldBackdrop _ | .bldComposite _ | .accSeed
  | .accStep => true
  | .markDrawn _ | .markHidden _ | .query _ _ | .qpop | .renderRow _ | .startFrame | .shouldFlush => false

/-- A property that everything a row does keeps: its commands, the writes to `OUT`, and taking a fault. -/
structure KeptInRow (P : State → Prop) : Prop where
  command : ∀ i s, inRow i = true → P s → P (execNext i s)
  write : ∀ row col v s, P s → P (writeOut row col v s)
  fault : ∀ bits w s, bits ≠ 0#5 → P s → P (raise bits w s)

section
variable {P : State → Prop} (h : KeptInRow P)
include h

theorem KeptInRow.objLayer (s : State) (hs : P s) : P (objLayer s) := by
  rw [Machine.objLayer]
  split
  · exact h.command (.bldObj _ _ _) s rfl hs
  · exact hs

theorem KeptInRow.sampleBg (kind : BgKind) (n : BitVec 2) (x y : BitVec 8) (s : State) (hs : P s) :
    P (sampleBg kind n x y s) := by
  cases kind with
  | none => exact hs
  | tile => exact h.command (.smpTile n x y) s rfl hs
  | affine k => exact h.command (.smpAff k) s rfl hs
  | bitmap3 => exact h.command (.smpBmp3 x y) s rfl hs
  | bitmap4 => exact h.command (.smpBmp4 x y) s rfl hs
  | bitmap5 => exact h.command (.smpBmp5 x y) s rfl hs

theorem KeptInRow.bldBg (n : BitVec 2) (color : Colour) (prio : BitVec 3) (s : State) (hs : P s) :
    P (bldBg n color prio s) := by
  rw [Machine.bldBg]
  split
  · exact h.command (.bldBg0 color prio) s rfl hs
  · exact h.command (.bldBg1 color prio) s rfl hs
  · exact h.command (.bldBg2 color prio) s rfl hs
  · exact h.command (.bldBg3 color prio) s rfl hs

theorem KeptInRow.bgLayer (x y : BitVec 8) (n : BitVec 2) (s : State) (hs : P s) : P (bgLayer x y n s) := by
  have hsample := h.sampleBg (bgKind s.host.reg.dispcnt.mode n) n x y s hs
  rw [Machine.bgLayer]
  split
  · dsimp only
    split
    · exact h.bldBg _ _ _ _ hsample
    · exact hsample
  · exact hs

theorem KeptInRow.pixel (x y : BitVec 8) (s : State) (hs : P s) : P (pixel y x s) := by
  have hobj : P (smpObj x y s) := h.command (.smpObj x y) s rfl hs
  have hwin := h.command (.winEval x y (smpObj x y s).ores.objwin) _ rfl hobj
  have hlayer := h.objLayer _ (h.command .bldReset _ rfl hwin)
  have hbg := h.bgLayer x y 3 _ (h.bgLayer x y 2 _ (h.bgLayer x y 1 _ (h.bgLayer x y 0 _ hlayer)))
  have hdrop (u : State) (hu : P u) : P (bldBackdrop (backdropColor u.host) u) := h.command (.bldBackdrop _) u rfl hu
  have hdone (u : State) (hu : P u) : P (bldComposite u.wres.blend u) := h.command (.bldComposite _) u rfl hu
  have hcolour : P (pixelColour x y s) := hdone _ (hdrop _ hbg)
  exact h.command .accStep _ rfl (h.write y.toNat x.toNat _ _ hcolour)

theorem KeptInRow.blankRow (y : BitVec 8) (s : State) (hs : P s) : P (blankRow y s) :=
  List.foldlRecOn columns _ hs fun t ht x _ => h.write y.toNat x.toNat 0 t ht

theorem KeptInRow.renderColumns (y : BitVec 8) (s : State) (hs : P s) : P (renderColumns y s) :=
  List.foldlRecOn columns _ (h.command .accSeed s rfl hs) fun t ht x _ => h.pixel x y t ht

/-- A property that everything a row does keeps holds after the row. -/
theorem KeptInRow.renderRow (y : BitVec 8) (s : State) (hs : P s) : P (renderRow y s) := by
  refine guarded_keeps (fun _ => ?_) fun hb => h.fault _ _ s hb hs
  split
  · exact h.blankRow y s hs
  · exact h.renderColumns y s hs

end

/-- A property that every command but `RENDER_ROW`, the writes to `OUT` and taking a fault keep is kept by every
command. -/
theorem execNext_keeps {P : State → Prop} (hcommand : ∀ i s, (∀ y, i ≠ .renderRow y) → P s → P (execNext i s))
    (hwrite : ∀ row col v s, P s → P (writeOut row col v s))
    (hfault : ∀ bits w s, bits ≠ 0#5 → P s → P (raise bits w s)) (i : Instr) (s : State) (hs : P s) :
    P (execNext i s) := by
  have hrow : KeptInRow P := ⟨fun i s hi => hcommand i s fun y e => by simp [e, inRow] at hi, hwrite, hfault⟩
  by_cases hi : ∃ y, i = .renderRow y
  · obtain ⟨y, rfl⟩ := hi
    exact hrow.renderRow y s hs
  · exact hcommand i s (not_exists.1 hi) hs

/-! ### What a step can do -/

/-- A store that is carried out was well formed. -/
theorem hostStore_next {st : HostStore} {s t : State} (h : hostStore st s = .next t) :
    st.malformed = none ∧ t = { s with host := putStore st s.host } := by
  rw [hostStore] at h
  split at h
  · cases h
  · cases h
    exact ⟨by assumption, rfl⟩

/-- A read of `OUT` that is answered named a cell. -/
theorem hostReadOut_next {row col : Nat} {s t : State} (h : hostReadOut row col s = .next t) :
    (row < 160 ∧ col < 240) ∧ t = { s with readData := (outCell s row col).setWidth 32 } := by
  rw [hostReadOut] at h
  split at h
  · cases h
    exact ⟨by assumption, rfl⟩
  · cases h

/-- What a step that has a next state did: it waited, or it took a transaction of the host and ran a command, refused a
word, carried out a well-formed store, set dirty bits, delivered a result, or reset the block. -/
theorem step_cases {s t : State} (h : step s = .next t) :
    (s.inbox = [] ∧ t = s) ∨ ∃ x rest, s.inbox = x :: rest ∧
      ((∃ w i, x = .command w ∧ decode w = .ok i ∧ t = execNext i { s with inbox := rest }) ∨
       (∃ w e, x = .command w ∧ decode w = .error e ∧ t = badCommand w { s with inbox := rest }) ∨
       (∃ st, x = .store st ∧ st.malformed = none ∧ t = { s with inbox := rest, host := putStore st s.host }) ∨
       (∃ m, x = .dirtySet m ∧ t = { s with inbox := rest, dirty := s.dirty ||| m }) ∨
       (∃ v, t = { s with inbox := rest, readData := v }) ∨
       ∃ m, x = .reset m ∧ t = State.launch m rest) := by
  rw [step] at h
  cases hin : s.inbox with
  | nil =>
    rw [hin] at h
    cases h
    exact .inl ⟨rfl, rfl⟩
  | cons x rest =>
    rw [hin] at h
    refine .inr ⟨x, rest, rfl, ?_⟩
    cases x with
    | command w =>
      simp only [runTxn, runCommand] at h
      cases hd : decode w with
      | ok i =>
        rw [hd] at h
        exact .inl ⟨w, i, rfl, hd, eq_execNext_of_exec h⟩
      | error e =>
        rw [hd] at h
        cases h
        exact .inr (.inl ⟨w, e, rfl, hd, rfl⟩)
    | store st =>
      obtain ⟨hst, rfl⟩ := hostStore_next h
      exact .inr (.inr (.inl ⟨st, rfl, hst, rfl⟩))
    | dirtySet m =>
      cases h
      exact .inr (.inr (.inr (.inl ⟨m, rfl, rfl⟩)))
    | readResult r =>
      cases h
      exact .inr (.inr (.inr (.inr (.inl ⟨_, rfl⟩))))
    | readOut row col =>
      obtain ⟨-, rfl⟩ := hostReadOut_next h
      exact .inr (.inr (.inr (.inr (.inl ⟨_, rfl⟩))))
    | reset m =>
      cases h
      exact .inr (.inr (.inr (.inr (.inr ⟨m, rfl, rfl⟩))))

/-- A property of block-owned state, which the host's ports other than the command port and reset cannot touch, is kept
by every step if it holds at reset and every command keeps it, and so does taking a fault. -/
theorem step_keeps {P : State → Prop} (hreset : ∀ m inbox, P (State.launch m inbox))
    (hport : ∀ s host inbox dirty readData, P s →
      P { s with host := host, inbox := inbox, dirty := dirty, readData := readData })
    (hfault : ∀ bits w s, bits ≠ 0#5 → P s → P (raise bits w s)) (hexec : ∀ i s, P s → P (execNext i s))
    {s t : State} (hs : P s) (h : step s = .next t) : P t := by
  rcases step_cases h with ⟨-, rfl⟩ | ⟨x, rest, -, hx⟩
  · exact hs
  have htaken : P { s with inbox := rest } := hport s _ rest _ _ hs
  rcases hx with ⟨w, i, -, -, rfl⟩ | ⟨w, e, -, -, rfl⟩ | ⟨st, -, -, rfl⟩ | ⟨m, -, rfl⟩ | ⟨v, rfl⟩ | ⟨m, -, rfl⟩
  · exact hexec i _ htaken
  · exact hfault badCommandBit w _ (by decide) htaken
  · exact hport s _ rest _ _ hs
  · exact hport s _ rest _ _ hs
  · exact hport s _ rest _ _ hs
  · exact hreset m rest

end Sys2Proof.Machine
end

section
/-! PROOFS. Which commands write which state (R21, R22, R39, R40, R44, R50, R79, R293, R300). -/

namespace Sys2Proof.Machine

/-! ### Host-owned state and the model's own fields -/

/-- `t` agrees with `s` in host-owned state and in the model's own fields. -/
structure SameHost (s t : State) : Prop where
  host : t.host = s.host
  inbox : t.inbox = s.inbox
  readData : t.readData = s.readData

theorem SameHost.refl (s : State) : SameHost s s := ⟨rfl, rfl, rfl⟩

theorem SameHost.trans {s t u : State} (h : SameHost s t) (h' : SameHost t u) : SameHost s u :=
  ⟨h'.host.trans h.host, h'.inbox.trans h.inbox, h'.readData.trans h.readData⟩

/-- A guarded command leaves the host's state alone if its effect does. -/
theorem SameHost.guarded {bits : FaultSet} {i : Instr} {s s' : State} (h : SameHost s s') :
    SameHost s (guarded bits i s s') :=
  guarded_keeps (fun _ => h) fun _ => ⟨rfl, rfl, rfl⟩

theorem SameHost.setBres (v : Option Colour) (s : State) : SameHost s (setBres v s) :=
  ⟨setBres_host s v, setBres_inbox s v, setBres_readData s v⟩

theorem SameHost.execNext_of_not_row (i : Instr) (s : State) (hi : ∀ y, i ≠ .renderRow y) :
    SameHost s (execNext i s) := by
  cases i with
  | markDrawn slot =>
    rcases markDrawn_cases slot s with h | ⟨-, -, h⟩ <;> rw [execNext, h] <;> exact ⟨rfl, rfl, rfl⟩
  | markHidden slot =>
    rcases markHidden_cases slot s with h | ⟨-, h⟩ <;> rw [execNext, h] <;> exact ⟨rfl, rfl, rfl⟩
  | qpop => rcases qpop_cases s with h | ⟨slot, h⟩ <;> rw [execNext, h] <;> exact ⟨rfl, rfl, rfl⟩
  | smpTile | smpAff | smpBmp3 | smpBmp4 | smpBmp5 => exact .setBres _ s
  | query | smpObj | winEval | bldReset | accSeed | accStep => exact ⟨rfl, rfl, rfl⟩
  | bldObj | bldBg0 | bldBg1 | bldBg2 | bldBg3 | bldBackdrop | bldComposite | startFrame | shouldFlush =>
    exact .guarded ⟨rfl, rfl, rfl⟩
  | renderRow y => exact absurd rfl (hi y)

/-- No command writes host-owned state (R21), the transactions to come or the value last read. -/
theorem SameHost.execNext (i : Instr) (s : State) : SameHost s (execNext i s) :=
  execNext_keeps (P := SameHost s) (fun i u hi hu => hu.trans (.execNext_of_not_row i u hi))
    (fun _ _ _ _ hu => hu.trans ⟨rfl, rfl, rfl⟩) (fun _ _ _ _ hu => hu.trans ⟨rfl, rfl, rfl⟩) i s (.refl s)

/-- Settles O24: each command leaves the host's state alone, `RENDER_ROW` because each command of its pixels does. -/
theorem commandsLeaveHostState : Obligations.CommandsLeaveHostState := by
  unfold Obligations.CommandsLeaveHostState
  intro i s t h
  obtain rfl := eq_execNext_of_exec h
  obtain ⟨hhost, hinbox, hread⟩ := SameHost.execNext i s
  simp only [hhost, hinbox, hread, implies_true, and_self]

/-! ### Block-owned state -/

/-- A command that changes nothing writes nothing. -/
theorem WritesOnly.refl (i : Instr) (s : State) : WritesOnly i s s := by
  constructor <;> simp

/-- A guarded command that may fault writes what its effect writes. -/
theorem WritesOnly.guarded {bits : FaultSet} {i : Instr} {s s' : State} (hi : canFault i = true)
    (h : WritesOnly i s s') : WritesOnly i s (guarded bits i s s') :=
  guarded_keeps (fun _ => h) fun _ => { WritesOnly.refl i s with fault := fun _ => hi }

/-- A sampler command of a background writes `BRES` alone (R198). -/
theorem WritesOnly.setBres {i : Instr} (v : Option Colour) (s : State)
    (hi : (∃ n x y, i = .smpTile n x y) ∨ (∃ k, i = .smpAff k) ∨ (∃ x y, i = .smpBmp3 x y) ∨
      (∃ x y, i = .smpBmp4 x y) ∨ (∃ x y, i = .smpBmp5 x y) ∨ ∃ y, i = .renderRow y) :
    WritesOnly i s (setBres v s) := by
  cases v <;> exact { WritesOnly.refl i s with bres := fun _ => hi }

theorem WritesOnly.markDrawn (slot : SlotNo) (s : State) : WritesOnly (.markDrawn slot) s (markDrawn slot s) := by
  rcases markDrawn_cases slot s with h | ⟨-, -, h⟩ <;> rw [h]
  · exact .refl _ s
  · exact { WritesOnly.refl (.markDrawn slot) s with
      colset := fun _ => .inl ⟨slot, rfl⟩, rowset := fun _ => .inl ⟨slot, rfl⟩, objc := fun _ => .inl ⟨slot, rfl⟩ }

theorem WritesOnly.markHidden (slot : SlotNo) (s : State) :
    WritesOnly (.markHidden slot) s (markHidden slot s) := by
  rcases markHidden_cases slot s with h | ⟨-, h⟩ <;> rw [h]
  · exact .refl _ s
  · exact { WritesOnly.refl (.markHidden slot) s with
      colset := fun _ => .inr ⟨slot, rfl⟩, rowset := fun _ => .inr ⟨slot, rfl⟩, objc := fun _ => .inr ⟨slot, rfl⟩ }

theorem WritesOnly.qpop (s : State) : WritesOnly .qpop s (qpop s) := by
  rcases qpop_cases s with h | ⟨slot, h⟩ <;> rw [h]
  · exact { WritesOnly.refl .qpop s with qres := fun _ => rfl }
  · exact { WritesOnly.refl .qpop s with qres := fun _ => rfl, qset := fun _ => .inr (.inl rfl) }

/-- Each command of its own, the row apart: the fields that it writes, and that its fault conditions let it. -/
theorem WritesOnly.execNext_of_not_row (i : Instr) (s : State) (hi : ∀ y, i ≠ .renderRow y) :
    WritesOnly i s (execNext i s) := by
  cases i with
  | markDrawn slot => exact .markDrawn slot s
  | markHidden slot => exact .markHidden slot s
  | query x y => exact { WritesOnly.refl (.query x y) s with qset := fun _ => .inl ⟨x, y, rfl⟩ }
  | qpop => exact .qpop s
  | smpObj x y =>
    exact { WritesOnly.refl (.smpObj x y) s with ores := fun _ => .inl ⟨x, y, rfl⟩, qset := fun _ => by simp }
  | smpTile | smpAff | smpBmp3 | smpBmp4 | smpBmp5 => exact .setBres _ s (by simp)
  | winEval x y ow => exact { WritesOnly.refl (.winEval x y ow) s with wres := fun _ => .inl ⟨x, y, ow, rfl⟩ }
  | bldReset => exact { WritesOnly.refl .bldReset s with bu := fun _ => .inl rfl }
  | bldObj c p m => exact .guarded rfl { WritesOnly.refl (.bldObj c p m) s with bu := fun _ => by simp }
  | bldBg0 c p => exact .guarded rfl { WritesOnly.refl (.bldBg0 c p) s with bu := fun _ => by simp }
  | bldBg1 c p => exact .guarded rfl { WritesOnly.refl (.bldBg1 c p) s with bu := fun _ => by simp }
  | bldBg2 c p => exact .guarded rfl { WritesOnly.refl (.bldBg2 c p) s with bu := fun _ => by simp }
  | bldBg3 c p => exact .guarded rfl { WritesOnly.refl (.bldBg3 c p) s with bu := fun _ => by simp }
  | bldBackdrop c => exact .guarded rfl { WritesOnly.refl (.bldBackdrop c) s with bu := fun _ => by simp }
  | bldComposite en =>
    exact .guarded rfl
      { WritesOnly.refl (.bldComposite en) s with bu := fun _ => by simp, cres := fun _ => .inl ⟨en, rfl⟩ }
  | accSeed => exact { WritesOnly.refl .accSeed s with acc := fun _ => .inl rfl }
  | accStep => exact { WritesOnly.refl .accStep s with acc := fun _ => .inr (.inl rfl) }
  | renderRow y => exact absurd rfl (hi y)
  | startFrame => exact .guarded rfl { WritesOnly.refl .startFrame s with snap := fun _ => .inl rfl }
  | shouldFlush =>
    exact .guarded rfl
      { WritesOnly.refl .shouldFlush s with flush := fun _ => rfl, dirty := fun _ => rfl, snap := fun _ => .inr rfl }

/-- `t` agrees with `s` in everything that a row does not write (R276). -/
structure SameOffRow (s t : State) : Prop where
  colset : t.colset = s.colset
  rowset : t.rowset = s.rowset
  objc : t.objc = s.objc
  qres : t.qres = s.qres
  flush : t.flush = s.flush
  snap : t.snap = s.snap
  dirty : t.dirty = s.dirty

/-- A command of a row writes none of it, by what each command writes. -/
theorem SameOffRow.command {s u : State} {i : Instr} (hi : inRow i = true) (h : SameOffRow s u) :
    SameOffRow s (execNext i u) := by
  have hw := WritesOnly.execNext_of_not_row i u fun y e => by simp [e, inRow] at hi
  have hindex : ¬((∃ n, i = .markDrawn n) ∨ ∃ n, i = .markHidden n) := by
    rintro (⟨n, rfl⟩ | ⟨n, rfl⟩) <;> simp [inRow] at hi
  have hpop : i ≠ .qpop := fun e => by simp [e, inRow] at hi
  have hstart : i ≠ .startFrame := fun e => by simp [e, inRow] at hi
  have hflush : i ≠ .shouldFlush := fun e => by simp [e, inRow] at hi
  exact {
    colset := (not_not.1 (mt hw.colset hindex)).trans h.colset
    rowset := (not_not.1 (mt hw.rowset hindex)).trans h.rowset
    objc := (not_not.1 (mt hw.objc hindex)).trans h.objc
    qres := (not_not.1 (mt hw.qres hpop)).trans h.qres
    flush := (not_not.1 (mt hw.flush hflush)).trans h.flush
    snap := (not_not.1 (mt hw.snap (not_or.2 ⟨hstart, hflush⟩))).trans h.snap
    dirty := (not_not.1 (mt hw.dirty hflush)).trans h.dirty }

theorem SameOffRow.renderRow (y : BitVec 8) (s : State) : SameOffRow s (renderRow y s) :=
  KeptInRow.renderRow (P := SameOffRow s)
    ⟨fun _ _ => SameOffRow.command, fun _ _ _ _ h => { h with }, fun _ _ _ _ h => { h with }⟩ y s
    ⟨rfl, rfl, rfl, rfl, rfl, rfl, rfl⟩

/-- A row writes nothing but what the rules name `RENDER_ROW` for (R276). -/
theorem WritesOnly.renderRow (y : BitVec 8) (s : State) : WritesOnly (.renderRow y) s (renderRow y s) := by
  obtain ⟨hcol, hrow, hobjc, hqres, hflush, hsnap, hdirty⟩ := SameOffRow.renderRow y s
  constructor <;> simp [hcol, hrow, hobjc, hqres, hflush, hsnap, hdirty, canFault]

theorem WritesOnly.execNext (i : Instr) (s : State) : WritesOnly i s (execNext i s) := by
  by_cases hi : ∃ y, i = .renderRow y
  · obtain ⟨y, rfl⟩ := hi
    exact .renderRow y s
  · exact .execNext_of_not_row i s (not_exists.1 hi)

/-- Settles O25, command by command, and for `RENDER_ROW` by what the commands of its pixels write. -/
theorem writersOfState : Obligations.WritersOfState := by
  unfold Obligations.WritersOfState
  intro i s t h
  obtain rfl := eq_execNext_of_exec h
  exact .execNext i s

end Sys2Proof.Machine
end

section
/-! PROOFS. The invariant of the visibility index (R41) and its keeping by every step. -/

namespace Sys2Proof.Machine

/-! ### The sets of a range (R142, R145) -/

theorem bitOf_overRange_insertSlot {n : Nat} (slot o : SlotNo) (lo hi : Nat) (v : Vector SlotSet n) (i : Nat)
    (h : i < n) : bitOf (overRange (insertSlot slot) lo hi v)[i] o = true ↔
      (o = slot ∧ lo ≤ i ∧ i < hi) ∨ bitOf v[i] o = true := by
  rw [getElem_overRange]
  split
  · next hin => simp [hin]
  · next hin => simp only [hin, and_false, false_or]

theorem bitOf_overRange_removeSlot {n : Nat} (slot o : SlotNo) (lo hi : Nat) (v : Vector SlotSet n) (i : Nat)
    (h : i < n) : bitOf (overRange (removeSlot slot) lo hi v)[i] o = true ↔
      ¬(o = slot ∧ lo ≤ i ∧ i < hi) ∧ bitOf v[i] o = true := by
  rw [getElem_overRange]
  split
  · next hin => simp [hin]
  · next hin => simp only [hin, and_false, not_false_eq_true, true_and]

/-! ### The invariant -/

@[simp] theorem Tab.get_replicate {α : Type} {n k : Nat} (a : α) (i : BitVec k) (h : 2 ^ k = n) :
    Tab.get (Vector.replicate n a) i h = a := by
  simp [Tab.get]

/-- The invariant speaks of the sets and the cache alone. -/
theorem VisibilityInv.congr {s t : State} (h : VisibilityInv s) (hcol : t.colset = s.colset)
    (hrow : t.rowset = s.rowset) (hobjc : t.objc = s.objc) : VisibilityInv t :=
  ⟨by simpa only [hcol, hobjc] using h.cols, by simpa only [hrow, hobjc] using h.rows⟩

theorem visibilityInv_launch (m : LaunchMem) (inbox : List HostTxn) : VisibilityInv (State.launch m inbox) := by
  constructor <;> intro slot i hi <;> simp [State.launch, ObjCache.zero]

/-- Which slots are drawn and have an index in their bounds on one axis, which `within` says, once a hidden slot is
filled. -/
theorem drawn_within_fill (within : ObjCache → Prop) (objc : Vector ObjCache 128) (slot o : SlotNo) (g : ObjCache)
    (hhidden : (Tab.get objc slot).texW = 0) (hg : g.texW ≠ 0) :
    (o = slot ∧ within g) ∨ ((Tab.get objc o).texW ≠ 0 ∧ within (Tab.get objc o)) ↔
      (Tab.get (Tab.set objc slot g) o).texW ≠ 0 ∧ within (Tab.get (Tab.set objc slot g) o) := by
  rw [Tab.get_set]
  by_cases ho : slot = o
  · subst ho
    simp [hhidden, hg]
  · simp [ho, Ne.symm ho]

/-- The same once a slot is emptied, which takes it out of its own bounds. -/
theorem drawn_within_clear (within : ObjCache → Prop) (objc : Vector ObjCache 128) (slot o : SlotNo) (g : ObjCache)
    (hg : g.texW = 0) :
    ¬(o = slot ∧ within (Tab.get objc slot)) ∧ (Tab.get objc o).texW ≠ 0 ∧ within (Tab.get objc o) ↔
      (Tab.get (Tab.set objc slot g) o).texW ≠ 0 ∧ within (Tab.get (Tab.set objc slot g) o) := by
  rw [Tab.get_set]
  by_cases ho : slot = o
  · subst ho
    rw [if_pos rfl]
    exact ⟨fun ⟨hout, _, hin⟩ => absurd ⟨rfl, hin⟩ hout, fun ⟨hdrawn, _⟩ => absurd hg hdrawn⟩
  · simp [ho, Ne.symm ho]

/-- A hidden slot is in no set, so filling the sets and its entry from one geometry keeps the invariant (R142). -/
theorem VisibilityInv.fillSlot {s : State} (h : VisibilityInv s) (slot : SlotNo) (g : ObjCache)
    (hhidden : (Tab.get s.objc slot).texW = 0) (hg : g.texW ≠ 0) : VisibilityInv (fillSlot slot g s) := by
  constructor <;> intro o i hi <;> simp only [Machine.fillSlot]
  · rw [bitOf_overRange_insertSlot, h.cols]
    exact drawn_within_fill (fun c => c.clipX0 ≤ i ∧ i < c.clipX1) s.objc slot o g hhidden hg
  · rw [bitOf_overRange_insertSlot, h.rows]
    exact drawn_within_fill (fun c => c.clipY0 ≤ i ∧ i < c.clipY1) s.objc slot o g hhidden hg

/-- A slot is in no set outside its cached bounds, so emptying those empties it (R145). -/
theorem VisibilityInv.clearSlot {s : State} (h : VisibilityInv s) (slot : SlotNo) :
    VisibilityInv (clearSlot slot (Tab.get s.objc slot) s) := by
  constructor <;> intro o i hi <;> simp only [Machine.clearSlot]
  · rw [bitOf_overRange_removeSlot, h.cols]
    exact drawn_within_clear (fun c => c.clipX0 ≤ i ∧ i < c.clipX1) s.objc slot o _ rfl
  · rw [bitOf_overRange_removeSlot, h.rows]
    exact drawn_within_clear (fun c => c.clipY0 ≤ i ∧ i < c.clipY1) s.objc slot o _ rfl

/-- Only `MARK_DRAWN` and `MARK_HIDDEN` write what the invariant speaks of, and each keeps it. -/
theorem VisibilityInv.execNext (i : Instr) (s : State) (h : VisibilityInv s) : VisibilityInv (execNext i s) := by
  by_cases hi : (∃ n, i = .markDrawn n) ∨ ∃ n, i = .markHidden n
  · rcases hi with ⟨slot, rfl⟩ | ⟨slot, rfl⟩ <;> rw [Machine.execNext]
    · rcases markDrawn_cases slot s with e | ⟨hhidden, hshape, e⟩ <;> rw [e]
      · exact h
      · exact h.fillSlot slot _ hhidden hshape
    · rcases markHidden_cases slot s with e | ⟨-, e⟩ <;> rw [e]
      · exact h
      · exact h.clearSlot slot
  · have hw := WritesOnly.execNext i s
    exact h.congr (not_not.1 (mt hw.colset hi)) (not_not.1 (mt hw.rowset hi)) (not_not.1 (mt hw.objc hi))

/-- Settles O17: the invariant holds at reset, and of all that a step can do only the two index commands touch it. -/
theorem visibilityInvKept : Obligations.VisibilityInvKept := by
  unfold Obligations.VisibilityInvKept
  exact ⟨visibilityInv_launch, fun _ _ hs =>
    step_keeps visibilityInv_launch (fun _ _ _ _ _ h => ⟨h.cols, h.rows⟩) (fun _ _ _ _ h => ⟨h.cols, h.rows⟩)
      VisibilityInv.execNext hs⟩

end Sys2Proof.Machine
end

section
/-! PROOFS. When a blend command faults (R291, R292), and the invariant of the blend unit (R220, R224, R229) with its
keeping by every step. -/

namespace Sys2Proof.Machine

/-! ### Fault conditions -/

theorem bitIf_eq_zero {c : Bool} {b : FaultSet} (hb : b ≠ 0#5) : bitIf c b = 0#5 ↔ c = false := by
  cases c <;> simp [hb]

theorem priorityFault_eq_zero (prio : BitVec 3) : priorityFault prio = 0#5 ↔ prio.toNat ≤ 3 := by
  rw [priorityFault, bitIf_eq_zero (by decide)]
  simp

theorem orderFault_eq_zero (legal : Bool) : orderFault legal = 0#5 ↔ legal = true := by
  rw [orderFault, bitIf_eq_zero (by decide)]
  simp

theorem modeFault_eq_zero (s : State) : modeFault s = 0#5 ↔ s.host.reg.dispcnt.mode.toNat ≤ 5 := by
  rw [modeFault, bitIf_eq_zero (by decide)]
  simp

/-! ### The layers of a slot (R46) -/

/-- Adds to come only widen what a slot may hold. -/
theorem LayerOk.mono {r r' : Nat} {l : Layer} (h : LayerOk r l) (hr : r ≤ r') : LayerOk r' l := by
  rcases h with h | ⟨hl, hp, hb, hn⟩ | ⟨hl, hp, hn⟩ | ⟨hl, hp, hb, hn⟩
  · exact .inl h
  · exact .inr (.inl ⟨hl, hp, hb, by omega⟩)
  · exact .inr (.inr (.inl ⟨hl, hp, by omega⟩))
  · exact .inr (.inr (.inr ⟨hl, hp, hb, by omega⟩))

theorem layerOk_unset (r : Nat) : LayerOk r Layer.unset := .inl rfl

/-- A slot with the unset priority is unset. -/
theorem LayerOk.eq_unset {r : Nat} {l : Layer} (h : LayerOk r l) (hp : l.prio = 7) : l = Layer.unset := by
  rcases h with h | ⟨-, hp', -, -⟩ | ⟨-, hp', -⟩ | ⟨-, hp', -, -⟩
  · exact h
  all_goals simp [hp] at hp'

/-- A slot that is set before the backdrop is added has a priority below the backdrop's. -/
theorem LayerOk.prio_le_three {r : Nat} {l : Layer} (h : LayerOk r l) (hp : l.prio ≠ 7) (hr : r ≤ 5) :
    l.prio.toNat ≤ 3 := by
  rcases h with h | ⟨-, hp', -, -⟩ | ⟨-, hp', -⟩ | ⟨-, -, -, hn⟩
  · exact absurd (by rw [h]; rfl) hp
  · exact hp'
  · exact hp'
  · omega

/-- A background that can still be added is in no slot. -/
theorem LayerOk.layer_ne_background {r : Nat} {l : Layer} (h : LayerOk r l) (n : BitVec 2) (hr : r < 2 + n.toNat) :
    l.layer ≠ n.setWidth 3 := by
  intro e
  have hn : l.layer.toNat = n.toNat := by rw [e, BitVec.toNat_setWidth]; omega
  have hlt : n.toNat < 4 := n.isLt
  rcases h with h | ⟨-, -, -, hle⟩ | ⟨h, -, -⟩ | ⟨-, -, -, hle⟩
  · have : l.layer.toNat = 7 := by rw [h]; rfl
    omega
  · omega
  · have : l.layer.toNat = 4 := by rw [h]; rfl
    omega
  · omega

/-- Before it is added the backdrop is in no slot. -/
theorem LayerOk.layer_ne_backdrop {r : Nat} {l : Layer} (h : LayerOk r l) (hr : r ≤ 5) : l.layer ≠ 5 := by
  rcases h with h | ⟨hle, -, -, -⟩ | ⟨h, -, -⟩ | ⟨-, -, -, hle⟩
  · rw [h]; decide
  · intro e
    simp [e] at hle
  · rw [h]; decide
  · omega

theorem layerOk_object (b : BldCnt) (color : Colour) (prio : BitVec 3) (semi : Bool) (hp : prio.toNat ≤ 3) :
    LayerOk 1 (layerOf b 4 color prio semi) :=
  .inr (.inr (.inl ⟨rfl, hp, Nat.le_refl 1⟩))

theorem layerOk_background (b : BldCnt) (n : BitVec 2) (color : Colour) (prio : BitVec 3) (hp : prio.toNat ≤ 3) :
    LayerOk (2 + n.toNat) (layerOf b (n.setWidth 3) color prio false) := by
  have hn : (n.setWidth 3).toNat = n.toNat := by rw [BitVec.toNat_setWidth]; omega
  exact .inr (.inl ⟨by simp only [layerOf]; omega, hp, rfl, by simp only [layerOf]; omega⟩)

theorem layerOk_backdrop (b : BldCnt) (color : Colour) : LayerOk 6 (layerOf b 5 color 4 false) :=
  .inr (.inr (.inr ⟨rfl, rfl, rfl, Nat.le_refl 6⟩))

theorem rank_bgAdded (n : BitVec 2) : BuState.rank (bgAdded n) = 2 + n.toNat := by
  revert n; decide

theorem prio_ne_seven {p : BitVec 3} (h : p.toNat ≤ 4) : p ≠ 7 := by
  rintro rfl
  simp at h

/-! ### The invariant -/

/-- The invariant speaks of the blend unit alone. -/
theorem BlendInv.congr {s t : State} (h : BlendInv s) (hbu : t.bu = s.bu) : BlendInv t :=
  ⟨hbu ▸ h.slot0, hbu ▸ h.slot1, hbu ▸ h.ranked, hbu ▸ h.filled, hbu ▸ h.distinct⟩

/-- With both slots unset and no layer added the invariant holds. -/
theorem blendInv_unset {s : State} (h : s.bu = { state := .reset, slot0 := Layer.unset, slot1 := Layer.unset }) :
    BlendInv s := by
  constructor <;> rw [h]
  · exact layerOk_unset _
  · exact layerOk_unset _
  · decide
  · decide
  · exact fun _ => rfl

theorem blendInv_launch (m : LaunchMem) (inbox : List HostTxn) : BlendInv (State.launch m inbox) := blendInv_unset rfl

section
variable {s : State} (h : BlendInv s)
include h

/-- While slot 0 is unset, so is slot 1. -/
theorem BlendInv.slot1_unset (hp : s.bu.slot0.prio = 7) : s.bu.slot1 = Layer.unset := by
  have hle := h.ranked
  have hlt := s.bu.slot1.prio.isLt
  refine h.slot1.eq_unset (BitVec.eq_of_toNat_eq ?_)
  rw [hp, BitVec.le_def] at hle
  simp at hle ⊢
  omega

/-- `BLD_OBJ` puts the object in the first of two unset slots (R223). -/
theorem BlendInv.addObject (b : BldCnt) (color : Colour) (prio : BitVec 3) (semi : Bool) (hp : prio.toNat ≤ 3)
    (hr : BuState.rank s.bu.state = 0) :
    BlendInv { s with bu := { s.bu with state := .objectAdded, slot0 := layerOf b 4 color prio semi } } := by
  have h0 : s.bu.slot0.prio = 7 := by
    have hfilled := h.filled
    rw [hr] at hfilled
    simpa using hfilled
  have h1 := h.slot1_unset h0
  constructor
  · exact layerOk_object b color prio semi hp
  · exact h1 ▸ layerOk_unset _
  · show prio ≤ s.bu.slot1.prio
    rw [h1, BitVec.le_def]
    exact Nat.le_of_lt_succ prio.isLt
  · exact iff_of_true (Nat.le_refl 1) (prio_ne_seven (Nat.le_succ_of_le hp))
  · exact fun _ => h1

/-- A background offered in ascending order finds its place among the layers already added (R224). -/
theorem BlendInv.addBackground (b : BldCnt) (n : BitVec 2) (color : Colour) (prio : BitVec 3) (hp : prio.toNat ≤ 3)
    (hr : BuState.rank s.bu.state < 2 + n.toNat) :
    BlendInv { s with
      bu := { offer (layerOf b (n.setWidth 3) color prio false) s.bu with state := bgAdded n } } := by
  have hnew := layerOk_background b n color prio hp
  have h0 := h.slot0.mono (Nat.le_of_lt hr)
  have h1 := h.slot1.mono (Nat.le_of_lt hr)
  have hne0 := h.slot0.layer_ne_background n hr
  have hne1 := h.slot1.layer_ne_background n hr
  have hset : prio ≠ 7 := prio_ne_seven (Nat.le_succ_of_le hp)
  rw [← rank_bgAdded n] at hnew h0 h1
  have hadded : 1 ≤ BuState.rank (bgAdded n) := by rw [rank_bgAdded]; omega
  rw [offer]
  split
  · next hlt =>
    exact ⟨hnew, h0, BitVec.le_of_lt hlt, iff_of_true hadded hset, fun e => absurd e.symm hne0⟩
  · next hge =>
    have hle : s.bu.slot0.prio ≤ prio := BitVec.not_lt.1 hge
    have hset0 : s.bu.slot0.prio ≠ 7 := prio_ne_seven (Nat.le_succ_of_le (Nat.le_trans hle hp))
    split
    · exact ⟨h0, hnew, hle, iff_of_true hadded hset0, fun e => absurd e hne0⟩
    · exact ⟨h0, h1, h.ranked, iff_of_true hadded hset0, h.distinct⟩

/-- The backdrop takes the first unset slot, behind every layer (R229). -/
theorem BlendInv.addBackdrop (b : BldCnt) (color : Colour) (hr : BuState.rank s.bu.state ≤ 5) :
    BlendInv { s with
      bu := { offerBackdrop (layerOf b 5 color 4 false) s.bu with state := .backdropAdded } } := by
  have hnew := layerOk_backdrop b color
  have h0 := h.slot0.mono (Nat.le_succ_of_le hr)
  have h1 := h.slot1.mono (Nat.le_succ_of_le hr)
  have hadded : 1 ≤ BuState.rank .backdropAdded := by decide
  have hbehind : (4 : BitVec 3) ≤ Layer.unset.prio := by decide
  rw [offerBackdrop]
  split
  · next hp0 =>
    have hu := h.slot1_unset hp0
    exact ⟨hnew, h1, hu ▸ hbehind, iff_of_true hadded (prio_ne_seven (Nat.le_refl 4)), fun _ => hu⟩
  · next hp0 =>
    have hle := h.slot0.prio_le_three hp0 hr
    split
    · exact ⟨h0, hnew, Nat.le_succ_of_le hle, iff_of_true hadded hp0, fun e => absurd e (h.slot0.layer_ne_backdrop hr)⟩
    · exact ⟨h0, h1, h.ranked, iff_of_true hadded hp0, h.distinct⟩

/-- `BLD_COMPOSITE` leaves the slots as they are (R230). -/
theorem BlendInv.composite (cres : Half) (hr : BuState.rank s.bu.state = 6) :
    BlendInv { s with cres := cres, bu := { s.bu with state := .composited } } := by
  have hle : BuState.rank s.bu.state ≤ BuState.rank .composited := by rw [hr]; decide
  have hadded : 1 ≤ BuState.rank .composited := by decide
  have hset : s.bu.slot0.prio ≠ 7 := h.filled.1 (by omega)
  exact ⟨h.slot0.mono hle, h.slot1.mono hle, h.ranked, iff_of_true hadded hset, h.distinct⟩

/-- A guarded command keeps the invariant if its effect does. -/
theorem BlendInv.guarded {bits : FaultSet} {i : Instr} {s' : State} (hdone : bits = 0#5 → BlendInv s') :
    BlendInv (guarded bits i s s') :=
  guarded_keeps hdone fun _ => h.congr rfl

theorem BlendInv.addBackground_command (i : Instr) (n : BitVec 2) (color : Colour) (prio : BitVec 3) :
    BlendInv (Machine.addBackground i n color prio s) := by
  refine h.guarded fun hb => ?_
  obtain ⟨hp, hr⟩ := BitVec.or_eq_zero_iff.1 hb
  rw [priorityFault_eq_zero] at hp
  rw [orderFault_eq_zero, decide_eq_true_eq] at hr
  exact h.addBackground _ n color prio hp hr

end

/-- Every command on its own keeps the invariant: the blend commands by the lemmas above, the others do not write the
blend unit. -/
theorem BlendInv.execNext_of_not_row (i : Instr) (s : State) (hi : ∀ y, i ≠ .renderRow y) (h : BlendInv s) :
    BlendInv (execNext i s) := by
  have hbu := (WritesOnly.execNext i s).bu
  cases i with
  | bldReset => exact blendInv_unset rfl
  | bldObj color prio semi =>
    refine h.guarded fun hb => ?_
    obtain ⟨hp, hr⟩ := BitVec.or_eq_zero_iff.1 hb
    rw [priorityFault_eq_zero] at hp
    rw [orderFault_eq_zero, beq_iff_eq] at hr
    exact h.addObject _ color prio semi hp hr
  | bldBg0 color prio => exact h.addBackground_command _ 0 color prio
  | bldBg1 color prio => exact h.addBackground_command _ 1 color prio
  | bldBg2 color prio => exact h.addBackground_command _ 2 color prio
  | bldBg3 color prio => exact h.addBackground_command _ 3 color prio
  | bldBackdrop color =>
    refine h.guarded fun hb => ?_
    rw [orderFault_eq_zero, decide_eq_true_eq] at hb
    exact h.addBackdrop _ color hb
  | bldComposite en =>
    refine h.guarded fun hb => ?_
    rw [orderFault_eq_zero, beq_iff_eq] at hb
    exact h.composite _ hb
  | renderRow y => exact absurd rfl (hi y)
  | markDrawn | markHidden | query | qpop | smpObj | smpTile | smpAff | smpBmp3 | smpBmp4 | smpBmp5 | winEval | accSeed
  | accStep | startFrame | shouldFlush => exact h.congr (not_not.1 (mt hbu (by simp)))

/-- Settles O18, by what each blend command does to the slots, and for `RENDER_ROW` by the commands of its pixels. -/
theorem blendInvKept : Obligations.BlendInvKept := by
  unfold Obligations.BlendInvKept
  have hfault (bits : FaultSet) (w : Word) (s : State) (_ : bits ≠ 0#5) (h : BlendInv s) : BlendInv (raise bits w s) :=
    h.congr rfl
  exact fun s t hs => step_keeps blendInv_launch (fun _ _ _ _ _ h => h.congr rfl) hfault
    (execNext_keeps BlendInv.execNext_of_not_row (fun _ _ _ _ h => h.congr rfl) hfault) hs

end Sys2Proof.Machine
end

section
/-! PROOFS. The ranges of the geometry cache (R40), the unused fields of the snapshot (R44), the results that are not
valid (R148, R160, R198, R230) and the first fault's word (R293), each kept by every step. -/

namespace Sys2Proof.Machine

/-! ### The geometry cache (R40) -/

theorem spriteX_range (a : ObjAttr) : -256 ≤ spriteX a ∧ spriteX a ≤ 255 := by
  have hlo := BitVec.le_toInt a.x
  have hhi := BitVec.toInt_lt (x := a.x)
  rw [spriteX]
  omega

theorem spriteY_range (a : ObjAttr) (rh : Nat) : -128 ≤ spriteY a rh ∧ spriteY a rh ≤ 255 := by
  have hlo := BitVec.le_toInt a.y
  have hhi := BitVec.toInt_lt (x := a.y)
  have hnat := a.y.isLt
  rw [spriteY]
  split <;> omega

/-- The rectangle of a sprite is its texture, or twice that (R140). -/
theorem spriteSize_eq (a : ObjAttr) : spriteSize a =
    ((objDim a.shape a.size).1, (objDim a.shape a.size).2, (if a.doubleSize then 2 else 1) * (objDim a.shape a.size).1,
      (if a.doubleSize then 2 else 1) * (objDim a.shape a.size).2) := by
  rw [spriteSize]
  cases a.doubleSize <;> simp

/-- The sizes of a sprite's texture (R113). -/
theorem objDim_cases (shape size : BitVec 2) :
    let d := objDim shape size
    (d.1 = 0 ∧ d.2 = 0) ∨
      ((d.1 = 8 ∨ d.1 = 16 ∨ d.1 = 32 ∨ d.1 = 64) ∧ (d.2 = 8 ∨ d.2 = 16 ∨ d.2 = 32 ∨ d.2 = 64)) := by
  rcases objDim_range shape size with ⟨-, h⟩ | ⟨-, h⟩
  · exact .inl (by simp [h])
  · exact .inr (by simpa using h)

/-- Every geometry that `MARK_DRAWN` computes is in range (R140 to R144). -/
theorem cacheOk_geometry (a : ObjAttr) : CacheOk (geometry a) := by
  have hdim := objDim_cases a.shape a.size
  have hscale : (if a.doubleSize then 2 else 1) ≤ 2 := by split <;> omega
  simp only [geometry, spriteSize_eq]
  generalize objDim a.shape a.size = d at hdim ⊢
  dsimp only at hdim
  constructor
  · dsimp only; omega
  · dsimp only; omega
  · dsimp only; omega
  · exact spriteX_range a
  · exact spriteY_range a _
  · exact ⟨Nat.mul_le_mul hscale (show d.1 ≤ 64 by omega), Nat.mul_le_mul hscale (show d.2 ≤ 64 by omega)⟩
  · exact ⟨rfl, rfl⟩
  · exact ⟨rfl, rfl⟩
  · exact ⟨rfl, rfl⟩

theorem cacheOk_zero : CacheOk ObjCache.zero := by
  constructor <;> decide

/-- A slot that is emptied keeps its rectangle and bounds (R145). -/
theorem CacheOk.clear {c : ObjCache} (h : CacheOk c) : CacheOk { c with texW := 0, texH := 0 } :=
  { h with texW := .inl rfl, texH := .inl rfl, hidden := iff_of_true rfl rfl }

theorem cacheInv_launch (m : LaunchMem) (inbox : List HostTxn) : CacheInv (State.launch m inbox) := by
  intro slot
  rw [State.launch, Tab.get_replicate]
  exact cacheOk_zero

/-- The cache stays in range when one entry is replaced by one in range. -/
theorem CacheInv.set {s t : State} (h : CacheInv s) {slot : SlotNo} {c : ObjCache} (hc : CacheOk c)
    (ht : t.objc = Tab.set s.objc slot c) : CacheInv t := by
  intro o
  rw [ht, Tab.get_set]
  split
  · exact hc
  · exact h o

theorem CacheInv.execNext (i : Instr) (s : State) (h : CacheInv s) : CacheInv (execNext i s) := by
  by_cases hi : (∃ n, i = .markDrawn n) ∨ ∃ n, i = .markHidden n
  · rcases hi with ⟨slot, rfl⟩ | ⟨slot, rfl⟩ <;> rw [Machine.execNext]
    · rcases markDrawn_cases slot s with e | ⟨-, -, e⟩ <;> rw [e]
      · exact h
      · exact h.set (cacheOk_geometry _) rfl
    · rcases markHidden_cases slot s with e | ⟨-, e⟩ <;> rw [e]
      · exact h
      · exact h.set (h slot).clear rfl
  · have hobjc := not_not.1 (mt (WritesOnly.execNext i s).objc hi)
    intro slot
    rw [hobjc]
    exact h slot

/-! ### The snapshot (R44) -/

/-- A snapshot taken in a mode that is not reserved holds the fields its mode does not use at 0 (R252). -/
theorem snapInv_of_snapOf {t : State} {reg : Reg} (ht : t.snap = snapOf reg) (hmode : reg.dispcnt.mode.toNat ≤ 5) :
    SnapInv t := by
  constructor <;> rw [ht]
  · exact hmode
  · simp [snapOf, BitVec.and_assoc]
  · simp only [snapOf]
    split
    · simp [BitVec.and_assoc]
    · simp
  · intro htiled
    have hnot : ¬reg.dispcnt.mode.toNat ≤ 2 := Nat.not_le.2 htiled
    simp [snapOf, hnot]
  · intro h4 h5
    simp_all [snapOf]

theorem SnapInv.congr {s t : State} (h : SnapInv s) (hsnap : t.snap = s.snap) : SnapInv t :=
  ⟨hsnap ▸ h.tag, hsnap ▸ h.en, hsnap ▸ h.mos, hsnap ▸ h.tiled, hsnap ▸ h.page⟩

theorem snapInv_launch (m : LaunchMem) (inbox : List HostTxn) : SnapInv (State.launch m inbox) := by
  constructor <;> simp [State.launch]

theorem SnapInv.execNext (i : Instr) (s : State) (h : SnapInv s) : SnapInv (execNext i s) := by
  by_cases hi : i = .startFrame ∨ i = .shouldFlush
  · rcases hi with rfl | rfl
    · exact guarded_keeps (fun hb => snapInv_of_snapOf rfl ((modeFault_eq_zero s).1 hb)) fun _ => h.congr rfl
    · exact guarded_keeps (fun hb => snapInv_of_snapOf rfl ((modeFault_eq_zero s).1 hb)) fun _ => h.congr rfl
  · exact h.congr (not_not.1 (mt (WritesOnly.execNext i s).snap hi))

/-! ### The result registers -/

/-- A sprite result without a winner has no colour, priority or semi-transparency (R160). -/
def EmptyUnlessFound (r : ORes) : Prop := r.found = false → r.color = 0 ∧ r.prio = 0 ∧ r.semi = false

/-- A candidate wins with a colour or leaves colour, priority and `found` alone (R166, R167). -/
theorem EmptyUnlessFound.candidate {r : ORes} (hr : EmptyUnlessFound r) (h : HostMem) (a : ObjAttr) (c : ObjCache)
    (x y : Nat) : EmptyUnlessFound (candidate h a c x y r) := by
  rw [Machine.candidate]
  split
  · exact hr
  · split
    · exact hr
    · split
      · exact hr
      · split
        · exact fun hfound => nomatch hfound
        · exact hr

theorem EmptyUnlessFound.scan (s : State) (x y n : Nat) (q : SlotSet) (r : ORes) (hr : EmptyUnlessFound r) :
    EmptyUnlessFound (scan s x y n q r) := by
  induction n generalizing q r with
  | zero => exact hr
  | succ n ih =>
    rw [Machine.scan]
    split
    · exact hr
    · exact ih _ _ (hr.candidate _ _ _ x y)

theorem emptyUnlessFound_sampleObject (s : State) (x y : Nat) : EmptyUnlessFound (sampleObject s x y) :=
  EmptyUnlessFound.scan s x y cfg.nObj _ _ fun _ => ⟨rfl, rfl, rfl⟩

theorem ResultInv.congr {s t : State} (h : ResultInv s) (hqres : t.qres = s.qres) (hores : t.ores = s.ores)
    (hbres : t.bres = s.bres) (hcres : t.cres = s.cres) : ResultInv t :=
  ⟨hqres ▸ h.qres, hores ▸ h.ores, hbres ▸ h.bres, hcres ▸ h.cres⟩

theorem resultInv_launch (m : LaunchMem) (inbox : List HostTxn) : ResultInv (State.launch m inbox) := by
  constructor <;> simp [State.launch]

/-- A sample without a colour writes colour 0 (R198). -/
theorem ResultInv.setBres {s : State} (h : ResultInv s) (v : Option Colour) : ResultInv (setBres v s) := by
  cases v with
  | none => exact { h with bres := fun _ => rfl }
  | some c => exact { h with bres := fun hvalid => nomatch hvalid }

/-- A pop of the empty set reports slot 0 (R148). -/
theorem ResultInv.qpop {s : State} (h : ResultInv s) : ResultInv (qpop s) := by
  rcases qpop_cases s with e | ⟨slot, e⟩ <;> rw [e]
  · exact { h with qres := fun _ => rfl }
  · exact { h with qres := fun hvalid => nomatch hvalid }

/-- A 15-bit colour has no bit 15 (R230). -/
theorem ResultInv.composite {s : State} (h : ResultInv s) (color : Colour) (bu : BlendUnit) :
    ResultInv { s with cres := color.setWidth 16, bu := bu } :=
  { h with cres := by simp }

theorem ResultInv.execNext_of_not_row (i : Instr) (s : State) (hi : ∀ y, i ≠ .renderRow y) (h : ResultInv s) :
    ResultInv (execNext i s) := by
  have hw := WritesOnly.execNext i s
  cases i with
  | qpop => exact h.qpop
  | smpObj x y => exact { h with ores := emptyUnlessFound_sampleObject s x.toNat y.toNat }
  | smpTile | smpAff | smpBmp3 | smpBmp4 | smpBmp5 => exact h.setBres _
  | bldComposite en => exact guarded_keeps (fun _ => h.composite _ _) fun _ => h.congr rfl rfl rfl rfl
  | renderRow y => exact absurd rfl (hi y)
  | markDrawn | markHidden | query | winEval | bldReset | bldObj | bldBg0 | bldBg1 | bldBg2 | bldBg3 | bldBackdrop
  | accSeed | accStep | startFrame | shouldFlush =>
    exact h.congr (not_not.1 (mt hw.qres (by simp))) (not_not.1 (mt hw.ores (by simp)))
      (not_not.1 (mt hw.bres (by simp))) (not_not.1 (mt hw.cres (by simp)))

theorem ResultInv.execNext (i : Instr) (s : State) (h : ResultInv s) : ResultInv (execNext i s) :=
  execNext_keeps execNext_of_not_row (fun _ _ _ _ h => h.congr rfl rfl rfl rfl)
    (fun _ _ _ _ h => h.congr rfl rfl rfl rfl) i s h

/-! ### The first fault's word (R293) -/

/-- Once a fault is taken `FAULT` is not 0. -/
theorem faultInv_raise (bits : FaultSet) (w : Word) (s : State) (hb : bits ≠ 0#5) : FaultInv (raise bits w s) :=
  fun hzero => absurd (BitVec.or_eq_zero_iff.1 hzero).2 hb

theorem FaultInv.execNext_of_not_row (i : Instr) (s : State) (hi : ∀ y, i ≠ .renderRow y) (h : FaultInv s) :
    FaultInv (execNext i s) := by
  by_cases hc : canFault i = true
  · cases i with
    | bldObj | bldBg0 | bldBg1 | bldBg2 | bldBg3 | bldBackdrop | bldComposite | startFrame | shouldFlush =>
      exact guarded_keeps (fun _ => h) fun hb => faultInv_raise _ _ s hb
    | renderRow y => exact absurd rfl (hi y)
    | _ => cases hc
  · obtain ⟨hfault, hcmd⟩ := not_or.1 (mt (WritesOnly.execNext i s).fault hc)
    rw [FaultInv, not_not.1 hfault, not_not.1 hcmd]
    exact h

theorem FaultInv.execNext (i : Instr) (s : State) (h : FaultInv s) : FaultInv (execNext i s) :=
  execNext_keeps execNext_of_not_row (fun _ _ _ _ h => h) (fun bits w s hb _ => faultInv_raise bits w s hb) i s h

theorem faultInv_launch (m : LaunchMem) (inbox : List HostTxn) : FaultInv (State.launch m inbox) := fun _ => rfl

/-- Settles O20: each of the four parts holds at reset, is out of reach of the host's ports, and is kept by every
command. -/
theorem registerInvKept : Obligations.RegisterInvKept := by
  unfold Obligations.RegisterInvKept
  refine ⟨fun _ _ hs => ?_, fun _ _ hs => ?_, fun _ _ hs => ?_, fun _ _ hs => ?_⟩
  · exact step_keeps cacheInv_launch (fun _ _ _ _ _ h => h) (fun _ _ _ _ h => h) CacheInv.execNext hs
  · exact step_keeps snapInv_launch (fun _ _ _ _ _ h => h.congr rfl) (fun _ _ _ _ h => h.congr rfl) SnapInv.execNext hs
  · exact step_keeps resultInv_launch (fun _ _ _ _ _ h => h.congr rfl rfl rfl rfl)
      (fun _ _ _ _ h => h.congr rfl rfl rfl rfl) ResultInv.execNext hs
  · exact step_keeps faultInv_launch (fun _ _ _ _ _ h => h) (fun bits w s hb _ => faultInv_raise bits w s hb)
      FaultInv.execNext hs

end Sys2Proof.Machine
end

section
/-! PROOFS. The store port (R72, R100): what a store of a named field, of a byte and of a 2-byte word does. -/

namespace Sys2Proof.Machine

/-! ### Bits, entries and 2-byte words -/

theorem bitStored_setBit {w : Nat} (v : BitVec w) (n : Nat) (b : Bool) (hn : n < w) :
    BitStored v (setBit v n b) n b :=
  fun i _ => getLsbD_setBit v n i b hn

theorem entryStored_set {α : Type} {n k : Nat} (v : Vector α n) (i : BitVec k) (a : α) (h : 2 ^ k = n) :
    EntryStored v (Tab.set v i a h) i a h := by
  intro j
  rw [Tab.get_set, if_congr eq_comm rfl rfl]

/-- A 2-byte word is its low byte and 256 times its high byte (R72). -/
theorem Memory.readHalf_toNat (m : Memory 8) (a : Nat) :
    (Memory.readHalf m a).toNat = (Memory.read m a).toNat + 256 * (Memory.read m (a + 1)).toNat := by
  have hlow := (Memory.read m a).isLt
  rw [Memory.readHalf, BitVec.toNat_append, ← Nat.shiftLeft_add_eq_or_of_lt hlow, Nat.shiftLeft_eq]
  omega

/-- A 2-byte store changes its two bytes alone. -/
theorem Memory.read_writeHalf_ne (m : Memory 8) (a b : Nat) (v : Half) (h : Memory.wf m) (hlow : b ≠ a)
    (hhigh : b ≠ a + 1) : Memory.read (Memory.writeHalf m a v) b = Memory.read m b := by
  rw [Memory.writeHalf, Memory.read_write _ _ _ _ (Memory.write_wf m a _ h), if_neg hhigh, Memory.read_write _ _ _ _ h,
    if_neg hlow]

/-- A 2-byte store, as the bytes that read back. -/
theorem Memory.writeHalf_bytes (m : Memory 8) (a : Nat) (v : Half) (h : Memory.wf m) :
    let m' := Memory.writeHalf m a v
    v.toNat = (Memory.read m' a).toNat + 256 * (Memory.read m' (a + 1)).toNat ∧
      ∀ b, b ≠ a → b ≠ a + 1 → Memory.read m' b = Memory.read m b := by
  refine ⟨?_, fun b => Memory.read_writeHalf_ne m a b v h⟩
  rw [← Memory.readHalf_toNat, Memory.readHalf_writeHalf m a v h]

/-! ### Fields -/

/-- The store of a named field of `REG`, by kind of field: a plain one, a bit of a group, an entry of a table, or a bit
of a mask. -/
theorem regFieldStored_putRegField (f : RegField) (r : Reg) : RegFieldStored r (putRegField f r) f := by
  cases f with
  | mode | page | obj1d | forcedBlank | objwinEnable | winobjObj | winobjBlend | winoutObj | winoutBlend | mosaicBgH
  | mosaicBgV | mosaicObjH | mosaicObjV | bldMode | eva | evb | evy => rfl
  | bgEnable n v => exact ⟨rfl, bitStored_setBit _ _ _ n.isLt⟩
  | winEnable w v => exact ⟨rfl, bitStored_setBit _ _ _ w.isLt⟩
  | targetA l v => exact ⟨rfl, bitStored_setBit _ _ _ l.isLt⟩
  | targetB l v => exact ⟨rfl, bitStored_setBit _ _ _ l.isLt⟩
  | bgPriority | bgCharBase | bgMosaic | bgColor8 | bgScreenBase | bgWrap | bgSize | bgHofs | bgVofs | affPa | affPb
  | affPc | affPd | affX | affY | winLeft | winRight | winTop | winBottom | wininObj | wininBlend =>
    exact ⟨rfl, entryStored_set _ _ _ _⟩
  | wininBg w n v =>
    have hget : Tab.get (putRegField (.wininBg w n v) r).winin w =
        { Tab.get r.winin w with bg := setBit (Tab.get r.winin w).bg n.toNat v } := Tab.get_set_self _ _ _ _
    refine ⟨rfl, ?_, ?_⟩ <;> rw [hget]
    · exact entryStored_set _ _ _ _
    · exact ⟨rfl, bitStored_setBit _ _ _ n.isLt⟩
  | winobjBg n v => exact ⟨rfl, rfl, bitStored_setBit _ _ _ n.isLt⟩
  | winoutBg n v => exact ⟨rfl, rfl, bitStored_setBit _ _ _ n.isLt⟩

theorem oamFieldStored_putOamField (f : OamField) (a : ObjAttr) : OamFieldStored a (putOamField f a) f := by
  cases f <;> rfl

theorem objAffFieldStored_putObjAffField (f : ObjAffField) (g : ObjAffine) :
    ObjAffFieldStored g (putObjAffField f g) f := by
  cases f <;> rfl

/-- An entry of a table replaced by a function of it: the entry is that value, and no other entry changes. -/
theorem entryStored_update {α : Type} {n k : Nat} (v : Vector α n) (i : BitVec k) (f : α → α) (h : 2 ^ k = n) :
    EntryStored v (Tab.update v i f h) i (Tab.get (Tab.update v i f h) i h) h ∧
      Tab.get (Tab.update v i f h) i h = f (Tab.get v i h) := by
  have hget : Tab.get (Tab.update v i f h) i h = f (Tab.get v i h) := Tab.get_set_self _ _ _ _
  exact ⟨hget ▸ entryStored_set v i _ h, hget⟩

/-! ### The port -/

/-- A well-formed store is carried out (R100). -/
theorem step_store {s : State} {st : HostStore} {rest : List HostTxn} (hin : s.inbox = .store st :: rest)
    (hst : st.malformed = none) : step s = .next { s with inbox := rest, host := putStore st s.host } := by
  rw [step, hin]
  simp only [runTxn, hostStore, hst]

theorem checkHalf_eq_none {size a : Nat} (ha : a < size) (heven : a % 2 = 0) : checkHalf size a = none := by
  simp [checkHalf, Nat.not_le.2 ha, heven]

/-- Settles O10, by what the port does with a well-formed store and what each store does to its field or bytes. -/
theorem storePort : Obligations.StorePort := by
  unfold Obligations.StorePort
  refine ⟨fun s st rest hin hst => ⟨_, step_store hin hst, rfl⟩,
    fun s f rest hin => ⟨_, step_store hin rfl, rfl, regFieldStored_putRegField f _⟩, fun s n f rest hin => ?_,
    fun s g f rest hin => ?_, fun s rest hmem => ⟨?_, ?_, ?_, ?_⟩⟩
  · obtain ⟨hentry, hget⟩ := entryStored_update s.host.oam n (putOamField f) rfl
    exact ⟨_, step_store hin rfl, rfl, hentry, hget ▸ oamFieldStored_putOamField f _⟩
  · obtain ⟨hentry, hget⟩ := entryStored_update s.host.objAff g (putObjAffField f) rfl
    exact ⟨_, step_store hin rfl, rfl, hentry, hget ▸ objAffFieldStored_putObjAffField f _⟩
  · intro a v ha hin
    exact ⟨_, step_store hin (if_neg (Nat.not_le.2 ha)), rfl, fun b => Memory.read_write _ a b v hmem.vram.1⟩
  · intro a v ha heven hin
    exact ⟨_, step_store hin (checkHalf_eq_none ha heven), rfl, Memory.writeHalf_bytes _ a v hmem.vram.1⟩
  · intro a v ha hin
    exact ⟨_, step_store hin (if_neg (Nat.not_le.2 ha)), rfl, fun b => Memory.read_write _ a b v hmem.pal.1⟩
  · intro a v ha heven hin
    exact ⟨_, step_store hin (checkHalf_eq_none ha heven), rfl, Memory.writeHalf_bytes _ a v hmem.pal.1⟩

end Sys2Proof.Machine
end

section
/-! PROOFS. The reset state (R60, R310) and the machine's invariant in it (R41, R311). -/

namespace Sys2Proof.Machine

theorem outIndex_lt {r c : Nat} (hr : r < 160) (hc : c < 240) : outIndex r c < outCells := by
  show r * 240 + c < 160 * 240
  omega

/-- A cell of `OUT` right after reset is what the launch contents list for it (R79). -/
theorem outCell_launch (m : LaunchMem) (inbox : List HostTxn) {r c : Nat} (hr : r < 160) (hc : c < 240) :
    outCell (State.launch m inbox) r c = Memory.read m.out (240 * r + c) := by
  have hplace : outIndex r c = 240 * r + c := by rw [outIndex, cfg_screenW, Nat.mul_comm]
  rw [← hplace]
  exact Memory.read_canon outCells m.out _ (outIndex_lt hr hc)

theorem step_reset {s : State} {m : LaunchMem} {rest : List HostTxn} (hin : s.inbox = .reset m :: rest) :
    step s = .next (State.launch m rest) := by
  rw [step, hin]
  rfl

/-- Settles O15: the block-owned fields by their values in the launch state, the memories by the canonical form of their
contents. -/
theorem resetValues : Obligations.ResetValues := by
  unfold Obligations.ResetValues
  intro m rest s
  have hqres : packQRes { valid := false, slot := 0 } = 0 := by decide
  have hores : packORes { color := 0, prio := 0, semi := false, objwin := false, found := false } = 0 := by decide
  have hbres : packBRes { color := 0, valid := false } = 0 := by decide
  have hwres : packMask { bg := 0, obj := false, blend := false } = 0 := by decide
  have hsnap : packSnap { tag := 0, en := 0, mos := 0, granH := 0, granV := 0, page := false } = 0 := by decide
  refine ⟨fun x hx => Vector.getElem_replicate hx, fun y hy => Vector.getElem_replicate hy,
    fun n => Tab.get_replicate _ n _, rfl, hqres, hores, hbres, hwres, rfl, rfl, fun k => Tab.get_replicate _ k _, rfl,
    ?_, hsnap, rfl, rfl, rfl, fun a ha => Memory.read_canon cfg.vramSize m.host.vram a ha,
    fun a ha => Memory.read_canon palSize m.host.pal a ha, fun r c hr hc => outCell_launch m rest hr hc,
    fun u hin => step_reset hin⟩
  rintro l (rfl | rfl) <;> rfl

theorem memoryInv_launch (m : LaunchMem) (inbox : List HostTxn) : MemoryInv (State.launch m inbox) :=
  ⟨Memory.canon_wfBelow _ _, Memory.canon_wfBelow _ _, Memory.canon_wfBelow _ _⟩

theorem stateInv_launch (m : LaunchMem) (inbox : List HostTxn) : StateInv (State.launch m inbox) where
  visibility := visibilityInv_launch m inbox
  cache := cacheInv_launch m inbox
  blend := blendInv_launch m inbox
  snap := snapInv_launch m inbox
  memory := memoryInv_launch m inbox
  results := resultInv_launch m inbox
  fault := faultInv_launch m inbox

/-- Settles O16: each part of the invariant holds in every launch state, and `State.reset` is one. -/
theorem invAtReset : Obligations.InvAtReset := by
  unfold Obligations.InvAtReset
  exact ⟨stateInv_launch, stateInv_launch LaunchMem.zero []⟩

end Sys2Proof.Machine
end

section
/-! PROOFS. The invariant of the memories (R70, R71, R79): what a store leaves of `VRAM` and `PAL`, what a row leaves of
`OUT`, and the keeping of the canonical form by every step. -/

namespace Sys2Proof.Machine

/-! ### Stores to `VRAM` and `PAL` (R70 to R72) -/

/-- A byte store that is not outside its space lies in it. -/
theorem lt_of_outsideSpace_none {size a : Nat} (h : (if size ≤ a then some Malformed.outsideSpace else none) = none) :
    a < size := by
  by_contra hle
  rw [if_pos (Nat.le_of_not_lt hle)] at h
  cases h

/-- Where a 2-byte store is well formed, its space having an even size, both its bytes lie in the space. -/
theorem checkHalf_lt {size a : Nat} (h : checkHalf size a = none) (heven : size % 2 = 0) : a + 1 < size := by
  rw [checkHalf] at h
  split at h
  · cases h
  · split at h
    · cases h
    · omega

@[simp] theorem putOamHalf_vram (a : Nat) (v : Half) (h : HostMem) : (putOamHalf a v h).vram = h.vram := by
  simp only [putOamHalf]
  split <;> rfl

@[simp] theorem putOamHalf_pal (a : Nat) (v : Half) (h : HostMem) : (putOamHalf a v h).pal = h.pal := by
  simp only [putOamHalf]
  split <;> rfl

/-- A well-formed store keeps the canonical form of `VRAM` and of `PAL`. -/
theorem putStore_wfBelow {st : HostStore} {h : HostMem} (hst : st.malformed = none)
    (hvram : Memory.wfBelow cfg.vramSize h.vram) (hpal : Memory.wfBelow palSize h.pal) :
    Memory.wfBelow cfg.vramSize (putStore st h).vram ∧ Memory.wfBelow palSize (putStore st h).pal := by
  cases st with
  | regField | regHalf | regWord | oamField | objAffField => exact ⟨hvram, hpal⟩
  | oamHalf a v =>
    rw [putStore, putOamHalf_vram, putOamHalf_pal]
    exact ⟨hvram, hpal⟩
  | vramByte a v => exact ⟨Memory.write_wfBelow _ _ a v hvram (lt_of_outsideSpace_none hst), hpal⟩
  | vramHalf a v => exact ⟨Memory.writeHalf_wfBelow _ _ a v hvram (checkHalf_lt hst rfl), hpal⟩
  | palByte a v => exact ⟨hvram, Memory.write_wfBelow _ _ a v hpal (lt_of_outsideSpace_none hst)⟩
  | palHalf a v => exact ⟨hvram, Memory.writeHalf_wfBelow _ _ a v hpal (checkHalf_lt hst rfl)⟩

/-! ### What the parts of a pixel leave of `OUT` (R275) -/

/-- Only `RENDER_ROW` writes `OUT` (R79). -/
theorem execNext_out {i : Instr} (s : State) (hi : ∀ y, i ≠ .renderRow y) : (execNext i s).out = s.out :=
  not_not.1 (mt (WritesOnly.execNext i s).out (not_exists.2 hi))

@[simp] theorem objLayer_out (s : State) : (objLayer s).out = s.out := by
  rw [objLayer]
  split
  · exact execNext_out (i := .bldObj _ _ _) s nofun
  · rfl

@[simp] theorem sampleBg_out (kind : BgKind) (n : BitVec 2) (x y : BitVec 8) (s : State) :
    (sampleBg kind n x y s).out = s.out := by
  cases kind with
  | none => rfl
  | tile | affine | bitmap3 | bitmap4 | bitmap5 => exact setBres_out s _

@[simp] theorem bldBg_out (n : BitVec 2) (color : Colour) (prio : BitVec 3) (s : State) :
    (bldBg n color prio s).out = s.out := by
  rw [bldBg]
  split
  · exact execNext_out (i := .bldBg0 color prio) s nofun
  · exact execNext_out (i := .bldBg1 color prio) s nofun
  · exact execNext_out (i := .bldBg2 color prio) s nofun
  · exact execNext_out (i := .bldBg3 color prio) s nofun

@[simp] theorem bgLayer_out (x y : BitVec 8) (n : BitVec 2) (s : State) : (bgLayer x y n s).out = s.out := by
  rw [bgLayer]
  split
  · dsimp only
    split
    · rw [bldBg_out, sampleBg_out]
    · exact sampleBg_out _ n x y s
  · rfl

@[simp] theorem bldBackdrop_out (color : Colour) (s : State) : (bldBackdrop color s).out = s.out :=
  execNext_out (i := .bldBackdrop color) s nofun

@[simp] theorem bldComposite_out (en : Bool) (s : State) : (bldComposite en s).out = s.out :=
  execNext_out (i := .bldComposite en) s nofun

/-- The blend unit's part of a pixel leaves `OUT` alone. -/
@[simp] theorem pixelColour_out (x y : BitVec 8) (s : State) : (pixelColour x y s).out = s.out := by
  simp only [pixelColour, bldComposite_out, bldBackdrop_out, bgLayer_out, objLayer_out, bldReset_out, winEval_out,
    smpObj_out]

/-- A pixel writes one cell of `OUT`, the one of its row and column. -/
theorem pixel_out (y x : BitVec 8) (s : State) :
    (pixel y x s).out = Memory.write s.out (outIndex y.toNat x.toNat) (pixelColour x y s).cres := by
  rw [pixel, accStep_out, writeOut_out, pixelColour_out]

/-! ### What a row leaves of `OUT` (R276) -/

theorem columns_lt {x : BitVec 8} (h : x ∈ columns) : x.toNat < 240 := by
  obtain ⟨c, hc, rfl⟩ := List.mem_map.1 h
  rw [List.mem_range, cfg_screenW] at hc
  rw [BitVec.toNat_ofNat]
  omega

theorem rowFault_eq_zero (y : BitVec 8) : rowFault y = 0#5 ↔ y.toNat < 160 := by
  rw [rowFault, bitIf_eq_zero (by decide)]
  simp

/-- What the work of each column of the screen keeps, the work of all columns keeps. -/
theorem foldl_columns_keeps {P : State → Prop} {f : State → BitVec 8 → State} {s : State} (hs : P s)
    (hf : ∀ t x, x.toNat < 240 → P t → P (f t x)) : P (columns.foldl f s) :=
  List.foldlRecOn columns f hs fun t ht x hx => hf t x (columns_lt hx) ht

theorem blankRow_wfBelow {y : BitVec 8} {s : State} (hy : y.toNat < 160) (hout : Memory.wfBelow outCells s.out) :
    Memory.wfBelow outCells (blankRow y s).out :=
  foldl_columns_keeps (P := fun t => Memory.wfBelow outCells t.out) hout fun t _ hx ht =>
    Memory.write_wfBelow outCells t.out _ _ ht (outIndex_lt hy hx)

theorem renderColumns_wfBelow {y : BitVec 8} {s : State} (hy : y.toNat < 160) (hout : Memory.wfBelow outCells s.out) :
    Memory.wfBelow outCells (renderColumns y s).out :=
  foldl_columns_keeps (P := fun t => Memory.wfBelow outCells t.out) hout fun t x hx ht => by
    rw [pixel_out]
    exact Memory.write_wfBelow outCells t.out _ _ ht (outIndex_lt hy hx)

/-- A row of the screen is written inside `OUT`; a row off the screen faults and writes nothing. -/
theorem renderRow_wfBelow {y : BitVec 8} {s : State} (hout : Memory.wfBelow outCells s.out) :
    Memory.wfBelow outCells (renderRow y s).out := by
  refine guarded_keeps (P := fun t => Memory.wfBelow outCells t.out) (fun hnone => ?_) fun _ => hout
  have hy : y.toNat < 160 := (rowFault_eq_zero y).1 (BitVec.or_eq_zero_iff.1 hnone).1
  split
  · exact blankRow_wfBelow hy hout
  · exact renderColumns_wfBelow hy hout

/-! ### The invariant -/

/-- The invariant speaks of the three memories alone. -/
theorem MemoryInv.congr {s t : State} (h : MemoryInv s) (hhost : t.host = s.host) (hout : t.out = s.out) :
    MemoryInv t :=
  ⟨hhost ▸ h.vram, hhost ▸ h.pal, hout ▸ h.out⟩

/-- A command leaves host-owned memory alone (R21), and of the commands a row alone writes `OUT`. -/
theorem MemoryInv.execNext (i : Instr) (s : State) (h : MemoryInv s) : MemoryInv (execNext i s) := by
  have hhost := (SameHost.execNext i s).host
  by_cases hi : ∃ y, i = .renderRow y
  · obtain ⟨y, rfl⟩ := hi
    exact ⟨hhost ▸ h.vram, hhost ▸ h.pal, renderRow_wfBelow h.out⟩
  · exact h.congr hhost (execNext_out s (not_exists.1 hi))

/-- Settles O19: of all that a step can do, a store writes `VRAM` and `PAL` inside their spaces, a row writes `OUT`
inside its cells, and reset puts canonical contents in all three. -/
theorem memoryInvKept : Obligations.MemoryInvKept := by
  unfold Obligations.MemoryInvKept
  intro s t hs h
  rcases step_cases h with ⟨-, rfl⟩ | ⟨x, rest, -, hx⟩
  · exact hs
  rcases hx with ⟨w, i, -, -, rfl⟩ | ⟨w, e, -, -, rfl⟩ | ⟨st, -, hst, rfl⟩ | ⟨m, -, rfl⟩ | ⟨v, rfl⟩ | ⟨m, -, rfl⟩
  · exact .execNext i _ (hs.congr rfl rfl)
  · exact hs.congr rfl rfl
  · obtain ⟨hvram, hpal⟩ := putStore_wfBelow hst hs.vram hs.pal
    exact ⟨hvram, hpal, hs.out⟩
  · exact hs.congr rfl rfl
  · exact hs.congr rfl rfl
  · exact memoryInv_launch m rest

end Sys2Proof.Machine
end

section
/-! PROOFS. What the background samplers read (R75, R77, R88): no byte of `VRAM` past the background region, or past the
second page for a bitmap, and no byte of `PAL` past the backgrounds' palette. -/

namespace Sys2Proof.Machine

/-- Two memories that read the same at every address below `limit`. -/
def AgreeBelow (limit : Nat) (m m' : Memory 8) : Prop := ∀ a < limit, Memory.read m a = Memory.read m' a

theorem AgreeBelow.readHalf {limit a : Nat} {m m' : Memory 8} (h : AgreeBelow limit m m') (ha : a + 1 < limit) :
    Memory.readHalf m a = Memory.readHalf m' a := by
  rw [Memory.readHalf, Memory.readHalf, h a (Nat.lt_of_succ_lt ha), h (a + 1) ha]

/-! ### Texels and colours -/

/-- The region confines a texel read to the bytes below its end (R88). -/
theorem AgreeBelow.texelIndex {m m' : Memory 8} {r : Region} (h : AgreeBelow r.hi m m') (base : Nat) (bpp8 : Bool)
    (px py : Nat) : texelIndex m base bpp8 px py r = texelIndex m' base bpp8 px py r := by
  have hread (a : Nat) : readIn m r a = readIn m' r a := by
    rw [readIn, readIn]
    split
    · rfl
    · next hin => rw [h a (Nat.not_le.1 (not_or.1 hin).2)]
  rw [Machine.texelIndex, Machine.texelIndex, hread, hread]

/-- A texel is a byte at 8-bit depth and a nibble at 4-bit depth. -/
theorem texelIndex_lt {m : Memory 8} {base px py idx : Nat} {bpp8 : Bool} {r : Region}
    (h : texelIndex m base bpp8 px py r = some idx) : idx < if bpp8 then 256 else 16 := by
  cases bpp8 with
  | true =>
    rw [texelIndex, if_pos rfl] at h
    obtain ⟨b, -, rfl⟩ := Option.map_eq_some_iff.1 h
    exact b.isLt
  | false =>
    rw [texelIndex, if_neg Bool.false_ne_true] at h
    obtain ⟨b, -, rfl⟩ := Option.map_eq_some_iff.1 h
    split <;> exact BitVec.isLt _

/-- The entries of the backgrounds' palette lie below 0x200 (R71, R89). -/
theorem AgreeBelow.palColor {pal pal' : Memory 8} (h : AgreeBelow 0x200 pal pal') {i : Nat} (hi : i < 256) :
    palColor pal 0 i = palColor pal' 0 i := by
  rw [Machine.palColor, Machine.palColor, h.readHalf (by omega)]

/-- The colour of a background texel is an entry of the backgrounds' palette (R90). -/
theorem AgreeBelow.texelColor {pal pal' : Memory 8} (h : AgreeBelow 0x200 pal pal') (bpp8 : Bool) (pal4 : BitVec 4)
    (t : Option Nat) (ht : ∀ idx, t = some idx → idx < if bpp8 then 256 else 16) :
    texelColor pal 0 bpp8 pal4.toNat t = texelColor pal' 0 bpp8 pal4.toNat t := by
  cases t with
  | none => rfl
  | some idx =>
    have hidx := ht idx rfl
    have hpal4 := pal4.isLt
    rw [Machine.texelColor, Machine.texelColor]
    cases bpp8 with
    | true => rw [indexColor, indexColor, if_pos rfl, if_pos rfl, h.palColor hidx]
    | false =>
      rw [if_neg Bool.false_ne_true] at hidx
      rw [indexColor, indexColor, if_neg Bool.false_ne_true, if_neg Bool.false_ne_true, h.palColor (by omega)]

/-! ### The samplers -/

/-- A map entry has an even address, so it lies in the background region whole (R183). -/
theorem tileEntryAddr_even (c : BgCnt) (mx my : Nat) : tileEntryAddr c mx my % 2 = 0 := by
  rw [tileEntryAddr]
  omega

section
variable {h h' : HostMem} (hreg : h.reg = h'.reg) (hpal : AgreeBelow 0x200 h.pal h'.pal)
include hreg hpal

theorem sampleTile_congr (hvram : AgreeBelow 0x10000 h.vram h'.vram) (n : BitVec 2) (x y : Nat) :
    sampleTile h n x y = sampleTile h' n x y := by
  have htexel (c : BgCnt) (e : Half) (mx my : Nat) : tileTexel h c e mx my = tileTexel h' c e mx my := by
    rw [tileTexel, tileTexel, ← AgreeBelow.texelIndex (r := bgRegion) hvram]
    exact hpal.texelColor _ _ _ fun _ => texelIndex_lt
  rw [sampleTile, sampleTile, ← hreg]
  dsimp only
  split
  · rfl
  · next hin =>
    have heven := tileEntryAddr_even (Tab.get h.reg.bgcnt n) (tileMapCoord h.reg n x y).1 (tileMapCoord h.reg n x y).2
    rw [htexel, hvram.readHalf (by omega)]

theorem sampleAffine_congr (hvram : AgreeBelow 0x10000 h.vram h'.vram) (n : BitVec 2) (fx fy : Int) :
    sampleAffine h n fx fy = sampleAffine h' n fx fy := by
  rw [sampleAffine, sampleAffine, ← hreg]
  refine Option.bind_congr fun p _ => ?_
  dsimp only
  split
  · rfl
  · next hin =>
    rw [hvram _ (Nat.not_le.1 hin), ← AgreeBelow.texelIndex (r := bgRegion) hvram]
    exact hpal.texelColor true 0 _ fun _ => texelIndex_lt

end

/-- The second page begins at 0xA000 (R199). -/
theorem pageBase_le (h : HostMem) : pageBase h ≤ 0xA000 := by
  rw [pageBase, cfg_bmpPage1]
  split <;> omega

theorem pageBase_congr {h h' : HostMem} (hreg : h.reg = h'.reg) : pageBase h = pageBase h' := by
  rw [pageBase, pageBase, hreg]

section
variable {h h' : HostMem} (hvram : AgreeBelow 0x14000 h.vram h'.vram)
include hvram

theorem sampleBitmap3_congr (x y : Nat) : sampleBitmap3 h x y = sampleBitmap3 h' x y := by
  rw [sampleBitmap3, sampleBitmap3]
  split
  · rfl
  · next hin =>
    rw [cfg_bmp3W, cfg_bmp3H] at hin
    rw [cfg_bmp3W, hvram.readHalf (by omega)]

theorem sampleBitmap4_congr (hreg : h.reg = h'.reg) (hpal : AgreeBelow 0x200 h.pal h'.pal) (x y : Nat) :
    sampleBitmap4 h x y = sampleBitmap4 h' x y := by
  have hpage := pageBase_le h
  rw [sampleBitmap4, sampleBitmap4, ← pageBase_congr hreg]
  split
  · rfl
  · next hin =>
    rw [cfg_bmp4W, cfg_bmp4H] at hin
    rw [cfg_bmp4W, hvram _ (by omega)]
    refine hpal.texelColor true 0 _ fun idx hidx => ?_
    cases hidx
    exact (Memory.read h'.vram _).isLt

theorem sampleBitmap5_congr (hreg : h.reg = h'.reg) (x y : Nat) : sampleBitmap5 h x y = sampleBitmap5 h' x y := by
  have hpage := pageBase_le h
  rw [sampleBitmap5, sampleBitmap5, ← pageBase_congr hreg]
  split
  · rfl
  · next hin =>
    rw [cfg_bmp5W, cfg_bmp5H] at hin
    rw [cfg_bmp5W, hvram.readHalf (by omega)]

end

/-- Settles O41, sampler by sampler: each read is confined by the region, by the parity of a map entry's address, or by
the bitmap's edges. -/
theorem bgSamplersReadOnlyTheirRegion : Obligations.BgSamplersReadOnlyTheirRegion := by
  unfold Obligations.BgSamplersReadOnlyTheirRegion
  intro h h' n x y fx fy hreg hpal
  exact ⟨fun hvram => ⟨sampleTile_congr hreg hpal hvram n x y, sampleAffine_congr hreg hpal hvram n fx fy⟩,
    fun hvram => ⟨sampleBitmap3_congr hvram x y, sampleBitmap4_congr hvram hreg hpal x y,
      sampleBitmap5_congr hvram hreg x y⟩⟩

end Sys2Proof.Machine
end

section
/-! PROOFS. The command port (R81, R100, R310): a step runs the command that its word decodes to. -/

namespace Sys2Proof.Machine

theorem step_nil {s : State} (hin : s.inbox = []) : step s = .next s := by
  rw [step, hin]

theorem step_command {s : State} {w : Word} {rest : List HostTxn} {i : Instr} (hin : s.inbox = .command w :: rest)
    (hw : decode w = .ok i) : step s = exec i { s with inbox := rest } := by
  rw [step, hin]
  simp only [runTxn, runCommand, hw]

theorem decodeTableWord_eq_some {nbits w : Nat} {i : Instr} (h : decodeTableWord nbits w = some i) :
    decode (tableWord nbits w) = .ok i := by
  rw [decodeTableWord] at h
  cases hd : decode (tableWord nbits w) with
  | ok j =>
    rw [hd] at h
    cases h
    rfl
  | error e =>
    rw [hd] at h
    cases h

/-- Settles O7: a word that is issued first is taken from a state that is otherwise the one it was issued in. -/
theorem stepRunsDecodedCommand : Obligations.StepRunsDecodedCommand := by
  unfold Obligations.StepRunsDecodedCommand
  exact ⟨fun _ _ _ _ => step_command, fun s _ _ _ hw => step_command (rest := s.inbox) rfl (decodeTableWord_eq_some hw),
    fun _ => step_nil⟩

end Sys2Proof.Machine
end

section
/-! PROOFS. The encoding (R101, R102, R104, R106): what the word of each format is made of, which fields the
mask of a row tests, and what the decoder can do with a word. -/

namespace Sys2Proof

/-! ### Fields of a word (R7) -/

theorem toNat_field (w : Word) (lo len : Nat) : (field w lo len).toNat = w.toNat / 2 ^ lo % 2 ^ len := by
  rw [field, BitVec.extractLsb'_toNat, Nat.shiftRight_eq_div_pow]

theorem field_eq_iff (w : Word) (lo len : Nat) (v : BitVec len) :
    field w lo len = v ↔ w.toNat / 2 ^ lo % 2 ^ len = v.toNat := by
  rw [← BitVec.toNat_inj, toNat_field]

theorem flagField_eq_iff (w : Word) (i : Nat) (b : Bool) : flagField w i = b ↔ w.toNat / 2 ^ i % 2 = b.toNat := by
  rw [flagField, BitVec.getLsbD, Nat.testBit_eq_decide_div_mod_eq]
  cases b <;> simp

theorem field_eq_zero_iff (w : Word) (lo len : Nat) :
    field w lo len = 0#len ↔ ∀ j < len, w.getLsbD (lo + j) = false := by
  rw [BitVec.eq_of_getLsbD_eq_iff]
  refine forall₂_congr fun j hj => ?_
  simp [field, hj]

/-! ### The words of the formats (R102, R106)

Each format once: a word is the sum of R106 iff it has the opcode, the operands in their fields, and 0 elsewhere. -/

section
variable {w : Word} {op : Nat}

theorem eq_formatZ_iff (hop : op < 256 := by decide) :
    w = BitVec.ofNat 32 (op * 2 ^ 24) ↔ (field w 24 8).toNat = op ∧ field w 0 24 = 0#24 := by
  have hw := w.isLt
  simp only [← BitVec.toNat_inj, toNat_field, BitVec.toNat_ofNat]
  omega

theorem eq_formatS_iff (slot : SlotNo) (hop : op < 256 := by decide) :
    w = BitVec.ofNat 32 (op * 2 ^ 24 + slot.toNat) ↔
    (field w 24 8).toNat = op ∧ field w 7 17 = 0#17 ∧ field w 0 7 = slot := by
  have hw := w.isLt
  have hs := slot.isLt
  simp only [← BitVec.toNat_inj, toNat_field, BitVec.toNat_ofNat]
  omega

theorem eq_formatP_iff (x y : BitVec 8) (hop : op < 256 := by decide) :
    w = BitVec.ofNat 32 (xyWord (op * 2 ^ 24) x y) ↔
    (field w 24 8).toNat = op ∧ field w 16 8 = 0#8 ∧ field w 0 8 = x ∧ field w 8 8 = y := by
  have hw := w.isLt
  have hx := x.isLt
  have hy := y.isLt
  simp only [← BitVec.toNat_inj, toNat_field, BitVec.toNat_ofNat, xyWord, Nat.shiftLeft_eq]
  omega

theorem eq_formatW_iff (x y : BitVec 8) (ow : Bool) (hop : op < 256 := by decide) :
    w = BitVec.ofNat 32 (xyWord (op * 2 ^ 24 + (ow.toNat <<< 16)) x y) ↔
    (field w 24 8).toNat = op ∧ field w 17 7 = 0#7 ∧ field w 0 8 = x ∧ field w 8 8 = y ∧ flagField w 16 = ow := by
  have hw := w.isLt
  have hx := x.isLt
  have hy := y.isLt
  have ho := ow.toNat_lt
  simp only [← BitVec.toNat_inj, flagField_eq_iff, toNat_field, BitVec.toNat_ofNat, xyWord, Nat.shiftLeft_eq]
  omega

theorem eq_formatT_iff (bg : BitVec 2) (x y : BitVec 8) (hop : op < 256 := by decide) :
    w = BitVec.ofNat 32 (xyWord (op * 2 ^ 24 + (bg.toNat <<< 16)) x y) ↔
    (field w 24 8).toNat = op ∧ field w 18 6 = 0#6 ∧ field w 16 2 = bg ∧ field w 0 8 = x ∧ field w 8 8 = y := by
  have hw := w.isLt
  have hb := bg.isLt
  have hx := x.isLt
  have hy := y.isLt
  simp only [← BitVec.toNat_inj, toNat_field, BitVec.toNat_ofNat, xyWord, Nat.shiftLeft_eq]
  omega

theorem eq_formatA_iff (k : BitVec 1) (hop : op < 256 := by decide) :
    w = BitVec.ofNat 32 (op * 2 ^ 24 + (k.toNat <<< 16)) ↔
    (field w 24 8).toNat = op ∧ field w 0 16 = 0#16 ∧ field w 17 7 = 0#7 ∧ field w 16 1 = k := by
  have hw := w.isLt
  have hk := k.isLt
  simp only [← BitVec.toNat_inj, toNat_field, BitVec.toNat_ofNat, Nat.shiftLeft_eq]
  omega

theorem eq_formatO_iff (color : Colour) (prio : BitVec 3) (semi : Bool) (hop : op < 256 := by decide) :
    w = BitVec.ofNat 32 (layerWord (op * 2 ^ 24 + (semi.toNat <<< 18)) color prio) ↔
    (field w 24 8).toNat = op ∧ field w 19 5 = 0#5 ∧ field w 0 15 = color ∧ field w 15 3 = prio ∧
      flagField w 18 = semi := by
  have hw := w.isLt
  have hc := color.isLt
  have hp := prio.isLt
  have hs := semi.toNat_lt
  simp only [← BitVec.toNat_inj, flagField_eq_iff, toNat_field, BitVec.toNat_ofNat, layerWord, Nat.shiftLeft_eq]
  omega

theorem eq_formatG_iff (color : Colour) (prio : BitVec 3) (hop : op < 256 := by decide) :
    w = BitVec.ofNat 32 (layerWord (op * 2 ^ 24) color prio) ↔
    (field w 24 8).toNat = op ∧ field w 18 6 = 0#6 ∧ field w 0 15 = color ∧ field w 15 3 = prio := by
  have hw := w.isLt
  have hc := color.isLt
  have hp := prio.isLt
  simp only [← BitVec.toNat_inj, toNat_field, BitVec.toNat_ofNat, layerWord, Nat.shiftLeft_eq]
  omega

theorem eq_formatK_iff (color : Colour) (hop : op < 256 := by decide) :
    w = BitVec.ofNat 32 (op * 2 ^ 24 + color.toNat) ↔
    (field w 24 8).toNat = op ∧ field w 15 9 = 0#9 ∧ field w 0 15 = color := by
  have hw := w.isLt
  have hc := color.isLt
  simp only [← BitVec.toNat_inj, toNat_field, BitVec.toNat_ofNat]
  omega

theorem eq_formatC_iff (en : Bool) (hop : op < 256 := by decide) :
    w = BitVec.ofNat 32 (op * 2 ^ 24 + en.toNat) ↔
    (field w 24 8).toNat = op ∧ field w 1 23 = 0#23 ∧ flagField w 0 = en := by
  have hw := w.isLt
  have he := en.toNat_lt
  simp only [← BitVec.toNat_inj, flagField_eq_iff, toNat_field, BitVec.toNat_ofNat]
  omega

theorem eq_formatY_iff (y : BitVec 8) (hop : op < 256 := by decide) :
    w = BitVec.ofNat 32 (op * 2 ^ 24 + (y.toNat <<< 8)) ↔
    (field w 24 8).toNat = op ∧ field w 0 8 = 0#8 ∧ field w 16 8 = 0#8 ∧ field w 8 8 = y := by
  have hw := w.isLt
  have hy := y.isLt
  simp only [← BitVec.toNat_inj, toNat_field, BitVec.toNat_ofNat, Nat.shiftLeft_eq]
  omega

end

/-! ### Masks and matches (R102) -/

/-- The bits 23:0 that a format names lie together: the lowest of them, and how many they are. -/
def Format.operands : Format → Nat × Nat
  | .Z => (0, 0)
  | .S => (0, 7)
  | .P => (0, 16)
  | .W => (0, 17)
  | .T => (0, 18)
  | .A => (16, 1)
  | .O => (0, 19)
  | .G => (0, 18)
  | .K => (0, 15)
  | .C => (0, 1)
  | .Y => (8, 8)

theorem Format.operands_le (f : Format) : f.operands.1 + f.operands.2 ≤ 24 := by
  cases f <;> decide

/-- The mask of a format leaves out the bits of its operands and no other. -/
theorem Format.getLsbD_mask (f : Format) (j : Fin 32) :
    f.mask.getLsbD j = !decide (f.operands.1 ≤ j.val ∧ j.val < f.operands.1 + f.operands.2) := by
  cases f <;> revert j <;> decide

theorem OpcodeRow.getLsbD_matchWord (r : OpcodeRow) {j : Nat} (hj : j < 32) :
    r.matchWord.getLsbD j = (decide (24 ≤ j) && r.opcode.getLsbD (j - 24)) := by
  simp only [matchWord, BitVec.getLsbD_shiftLeft, BitVec.getLsbD_setWidth]
  by_cases h : 24 ≤ j
  · simp [h, hj, show j - 24 < 32 by omega]
  · simp [h, Nat.lt_of_not_le h]

/-- A word matches a row under its mask iff it has the row's opcode and 0 in every bit below that the format does not
name. -/
theorem OpcodeRow.match_iff (r : OpcodeRow) (w : Word) : w &&& r.format.mask = r.matchWord ↔
    field w 24 8 = r.opcode ∧ field w 0 r.format.operands.1 = 0#_ ∧
      field w (r.format.operands.1 + r.format.operands.2) (24 - (r.format.operands.1 + r.format.operands.2)) = 0#_ := by
  have hle := r.format.operands_le
  rw [BitVec.eq_of_getLsbD_eq_iff, BitVec.eq_of_getLsbD_eq_iff, field_eq_zero_iff, field_eq_zero_iff]
  have hmask (j : Nat) (hj : j < 32) := r.format.getLsbD_mask ⟨j, hj⟩
  generalize r.format.operands = p at hle hmask ⊢
  obtain ⟨lo, len⟩ := p
  dsimp only at hle hmask ⊢
  constructor
  · intro h
    have hbit (j : Nat) (hj : j < 32) (hout : ¬(lo ≤ j ∧ j < lo + len)) :
        w.getLsbD j = (decide (24 ≤ j) && r.opcode.getLsbD (j - 24)) := by
      have := (h j hj).trans (r.getLsbD_matchWord hj)
      rwa [BitVec.getLsbD_and, hmask j hj, decide_eq_false hout, Bool.not_false, Bool.and_true] at this
    refine ⟨fun j hj => ?_, fun j hj => ?_, fun j hj => ?_⟩
    · simpa [field, hj] using hbit (24 + j) (by omega) (by omega)
    · simpa [show ¬24 ≤ j by omega] using hbit (0 + j) (by omega) (by omega)
    · simpa [show ¬24 ≤ lo + len + j by omega] using hbit (lo + len + j) (by omega) (by omega)
  · rintro ⟨hop, hlow, hhigh⟩ j hj
    rw [BitVec.getLsbD_and, hmask j hj, r.getLsbD_matchWord hj]
    by_cases h24 : 24 ≤ j
    · have := hop (j - 24) (by omega)
      rw [field, BitVec.getLsbD_extractLsb', decide_eq_true (by omega), Bool.true_and, Nat.add_sub_cancel' h24] at this
      simp [h24, this, show ¬j < lo + len by omega]
    by_cases hin : lo ≤ j ∧ j < lo + len
    · simp [h24, hin]
    · have hz : w.getLsbD j = false := by
        by_cases hj' : j < lo
        · simpa using hlow j hj'
        · simpa [show lo + len + (j - (lo + len)) = j by omega] using hhigh (j - (lo + len)) (by omega)
      simp [h24, hz]

/-! ### The decoder (R101, R104, R105) -/

/-- What the decoder does with a word that has the opcode of a row: a word that matches the row is a command of its
mnemonic, of which it is the one word; any other has a reserved bit set. -/
def RowOf (w : Word) (d : Except Illegal Instr) : Prop :=
  ∃ r ∈ opcodeTable, field w 24 8 = r.opcode ∧
    ((w &&& r.format.mask = r.matchWord ∧ ∃ i, d = .ok i ∧ i.mnemonic = r.mnemonic ∧ w = encode i) ∨
      (w &&& r.format.mask ≠ r.matchWord ∧ d = .error .reservedBitSet))

/-- The arm of a row whose operands lie above `lo` bits that must be 0: it is met by the row's opcode, and its command
encodes to the word if those bits and the bits above the operands are 0. -/
theorem rowOf_guarded {w : Word} {i : Instr} {lo hi len : Nat} (r : OpcodeRow)
    (hop : (field w 24 8).toNat = r.opcode.toNat)
    (henc : field w 0 lo = 0#lo → field w hi len = 0#len → w = encode i)
    (hr : r ∈ opcodeTable := by decide) (hm : i.mnemonic = r.mnemonic := by rfl)
    (hlo : r.format.operands.1 = lo := by rfl) (hhi : r.format.operands.1 + r.format.operands.2 = hi := by rfl)
    (hlen : 24 - hi = len := by rfl) :
    RowOf w (if field w 0 lo = 0#lo then mustBeZero w hi len i else .error .reservedBitSet) := by
  subst hlo hhi hlen
  have hop' := BitVec.eq_of_toNat_eq hop
  refine ⟨r, hr, hop', ?_⟩
  rw [ne_eq, r.match_iff]
  by_cases hlow : field w 0 r.format.operands.1 = 0#_
  · rw [if_pos hlow, mustBeZero]
    by_cases hhigh : field w (r.format.operands.1 + r.format.operands.2)
        (24 - (r.format.operands.1 + r.format.operands.2)) = 0#_
    · exact .inl ⟨⟨hop', hlow, hhigh⟩, i, if_pos hhigh, hm, henc hlow hhigh⟩
    · exact .inr ⟨fun h => hhigh h.2.2, if_neg hhigh⟩
  · exact .inr ⟨fun h => hlow h.2.1, if_neg hlow⟩

/-- The arm of a row whose operands are the lowest bits, or that has none: it is met by the row's opcode, and its
command encodes to the word if the bits above the operands are 0. -/
theorem rowOf_mustBeZero {w : Word} {i : Instr} {hi len : Nat} (r : OpcodeRow)
    (hop : (field w 24 8).toNat = r.opcode.toNat) (henc : field w hi len = 0#len → w = encode i)
    (hr : r ∈ opcodeTable := by decide) (hm : i.mnemonic = r.mnemonic := by rfl)
    (hlo : r.format.operands.1 = 0 := by rfl) (hhi : r.format.operands.1 + r.format.operands.2 = hi := by rfl)
    (hlen : 24 - hi = len := by rfl) : RowOf w (mustBeZero w hi len i) := by
  have h := rowOf_guarded r hop (fun _ => henc) hr hm hlo hhi hlen
  rwa [if_pos (BitVec.of_length_zero : field w 0 0 = 0#0)] at h

/-- The opcodes of the table are those that R104 lists. -/
theorem listed_iff (op : BitVec 8) : (∃ r ∈ opcodeTable, op = r.opcode) ↔
    (1 ≤ op.toNat ∧ op.toNat ≤ 4) ∨ (8 ≤ op.toNat ∧ op.toNat ≤ 0x0E) ∨ (0x10 ≤ op.toNat ∧ op.toNat ≤ 0x1A) ∨
      op.toNat = 0x20 ∨ op.toNat = 0x21 := by
  revert op; decide

/-- The decoder, said once: it rejects a word of no row's opcode, and decodes any other by the row of its opcode. -/
theorem decode_cases (w : Word) :
    ((∀ r ∈ opcodeTable, field w 24 8 ≠ r.opcode) ∧ decode w = .error .unknownOpcode) ∨ RowOf w (decode w) := by
  rw [decode]
  split
  next hop => exact .inr (rowOf_mustBeZero ⟨0x01, "MARK_DRAWN", .S⟩ hop fun hzero =>
    (eq_formatS_iff (op := 0x01) _).2 ⟨hop, hzero, rfl⟩)
  next hop => exact .inr (rowOf_mustBeZero ⟨0x02, "MARK_HIDDEN", .S⟩ hop fun hzero =>
    (eq_formatS_iff (op := 0x02) _).2 ⟨hop, hzero, rfl⟩)
  next hop => exact .inr (rowOf_mustBeZero ⟨0x03, "QUERY", .P⟩ hop fun hzero =>
    (eq_formatP_iff (op := 0x03) _ _).2 ⟨hop, hzero, rfl, rfl⟩)
  next hop => exact .inr (rowOf_mustBeZero ⟨0x04, "QPOP", .Z⟩ hop fun hzero =>
    (eq_formatZ_iff (op := 0x04)).2 ⟨hop, hzero⟩)
  next hop => exact .inr (rowOf_mustBeZero ⟨0x08, "SMP_OBJ", .P⟩ hop fun hzero =>
    (eq_formatP_iff (op := 0x08) _ _).2 ⟨hop, hzero, rfl, rfl⟩)
  next hop => exact .inr (rowOf_mustBeZero ⟨0x09, "SMP_TILE", .T⟩ hop fun hzero =>
    (eq_formatT_iff (op := 0x09) _ _ _).2 ⟨hop, hzero, rfl, rfl, rfl⟩)
  next hop => exact .inr (rowOf_guarded ⟨0x0A, "SMP_AFF", .A⟩ hop fun hlow hhigh =>
    (eq_formatA_iff (op := 0x0A) _).2 ⟨hop, hlow, hhigh, rfl⟩)
  next hop => exact .inr (rowOf_mustBeZero ⟨0x0B, "SMP_BMP3", .P⟩ hop fun hzero =>
    (eq_formatP_iff (op := 0x0B) _ _).2 ⟨hop, hzero, rfl, rfl⟩)
  next hop => exact .inr (rowOf_mustBeZero ⟨0x0C, "SMP_BMP4", .P⟩ hop fun hzero =>
    (eq_formatP_iff (op := 0x0C) _ _).2 ⟨hop, hzero, rfl, rfl⟩)
  next hop => exact .inr (rowOf_mustBeZero ⟨0x0D, "SMP_BMP5", .P⟩ hop fun hzero =>
    (eq_formatP_iff (op := 0x0D) _ _).2 ⟨hop, hzero, rfl, rfl⟩)
  next hop => exact .inr (rowOf_mustBeZero ⟨0x0E, "WIN_EVAL", .W⟩ hop fun hzero =>
    (eq_formatW_iff (op := 0x0E) _ _ _).2 ⟨hop, hzero, rfl, rfl, rfl⟩)
  next hop => exact .inr (rowOf_mustBeZero ⟨0x10, "BLD_RESET", .Z⟩ hop fun hzero =>
    (eq_formatZ_iff (op := 0x10)).2 ⟨hop, hzero⟩)
  next hop => exact .inr (rowOf_mustBeZero ⟨0x11, "BLD_OBJ", .O⟩ hop fun hzero =>
    (eq_formatO_iff (op := 0x11) _ _ _).2 ⟨hop, hzero, rfl, rfl, rfl⟩)
  next hop => exact .inr (rowOf_mustBeZero ⟨0x12, "BLD_BG0", .G⟩ hop fun hzero =>
    (eq_formatG_iff (op := 0x12) _ _).2 ⟨hop, hzero, rfl, rfl⟩)
  next hop => exact .inr (rowOf_mustBeZero ⟨0x13, "BLD_BG1", .G⟩ hop fun hzero =>
    (eq_formatG_iff (op := 0x13) _ _).2 ⟨hop, hzero, rfl, rfl⟩)
  next hop => exact .inr (rowOf_mustBeZero ⟨0x14, "BLD_BG2", .G⟩ hop fun hzero =>
    (eq_formatG_iff (op := 0x14) _ _).2 ⟨hop, hzero, rfl, rfl⟩)
  next hop => exact .inr (rowOf_mustBeZero ⟨0x15, "BLD_BG3", .G⟩ hop fun hzero =>
    (eq_formatG_iff (op := 0x15) _ _).2 ⟨hop, hzero, rfl, rfl⟩)
  next hop => exact .inr (rowOf_mustBeZero ⟨0x16, "BLD_BACKDROP", .K⟩ hop fun hzero =>
    (eq_formatK_iff (op := 0x16) _).2 ⟨hop, hzero, rfl⟩)
  next hop => exact .inr (rowOf_mustBeZero ⟨0x17, "BLD_COMPOSITE", .C⟩ hop fun hzero =>
    (eq_formatC_iff (op := 0x17) _).2 ⟨hop, hzero, rfl⟩)
  next hop => exact .inr (rowOf_mustBeZero ⟨0x18, "ACC_SEED", .Z⟩ hop fun hzero =>
    (eq_formatZ_iff (op := 0x18)).2 ⟨hop, hzero⟩)
  next hop => exact .inr (rowOf_mustBeZero ⟨0x19, "ACC_STEP", .Z⟩ hop fun hzero =>
    (eq_formatZ_iff (op := 0x19)).2 ⟨hop, hzero⟩)
  next hop => exact .inr (rowOf_guarded ⟨0x1A, "RENDER_ROW", .Y⟩ hop fun hlow hhigh =>
    (eq_formatY_iff (op := 0x1A) _).2 ⟨hop, hlow, hhigh, rfl⟩)
  next hop => exact .inr (rowOf_mustBeZero ⟨0x20, "START_FRAME", .Z⟩ hop fun hzero =>
    (eq_formatZ_iff (op := 0x20)).2 ⟨hop, hzero⟩)
  next hop => exact .inr (rowOf_mustBeZero ⟨0x21, "SHOULD_FLUSH", .Z⟩ hop fun hzero =>
    (eq_formatZ_iff (op := 0x21)).2 ⟨hop, hzero⟩)
  next =>
    refine .inl ⟨fun r hr hop => ?_, rfl⟩
    have hlisted := (listed_iff (field w 24 8)).1 ⟨r, hr, hop⟩
    simp only [imp_false] at *
    omega

/-- A word that decodes to a command matches the row of the command's mnemonic, and is the command's word. -/
theorem decode_eq_ok {w : Word} {i : Instr} (h : decode w = .ok i) :
    ∃ r ∈ opcodeTable, w &&& r.format.mask = r.matchWord ∧ i.mnemonic = r.mnemonic ∧ w = encode i := by
  rcases decode_cases w with ⟨-, herr⟩ | ⟨r, hr, -, ⟨hmatch, j, hj, hm, henc⟩ | ⟨-, herr⟩⟩
  · simp [herr] at h
  · obtain rfl : j = i := by simpa [hj] using h
    exact ⟨r, hr, hmatch, hm, henc⟩
  · simp [herr] at h

/-- No two rows of the table have one opcode or one mnemonic (R101). -/
theorem opcodeTable_inj : ∀ r ∈ opcodeTable, ∀ r' ∈ opcodeTable,
    r.opcode = r'.opcode ∨ r.mnemonic = r'.mnemonic → r = r' := by decide

/-! ### The statements -/

/-- Settles O1: the word of a command has the opcode and the fields of its format, from which the decoder reads the
command back. -/
theorem decodeEncode : Obligations.DecodeEncode := by
  unfold Obligations.DecodeEncode
  intro i
  cases i with
  | qpop | bldReset | accSeed | accStep | startFrame | shouldFlush => rfl
  | markDrawn slot =>
    obtain ⟨hop, hzero, hslot⟩ :=
      (eq_formatS_iff (op := 0x01) slot).1 (rfl : encode (.markDrawn slot) = _)
    simp only [decode, hop, mustBeZero, hzero, hslot, if_true]
  | markHidden slot =>
    obtain ⟨hop, hzero, hslot⟩ :=
      (eq_formatS_iff (op := 0x02) slot).1 (rfl : encode (.markHidden slot) = _)
    simp only [decode, hop, mustBeZero, hzero, hslot, if_true]
  | query x y =>
    obtain ⟨hop, hzero, hx, hy⟩ :=
      (eq_formatP_iff (op := 0x03) x y).1 (rfl : encode (.query x y) = _)
    simp only [decode, hop, mustBeZero, hzero, hx, hy, if_true]
  | smpObj x y =>
    obtain ⟨hop, hzero, hx, hy⟩ :=
      (eq_formatP_iff (op := 0x08) x y).1 (rfl : encode (.smpObj x y) = _)
    simp only [decode, hop, mustBeZero, hzero, hx, hy, if_true]
  | smpTile bg x y =>
    obtain ⟨hop, hzero, hbg, hx, hy⟩ :=
      (eq_formatT_iff (op := 0x09) bg x y).1 (rfl : encode (.smpTile bg x y) = _)
    simp only [decode, hop, mustBeZero, hzero, hbg, hx, hy, if_true]
  | smpAff k =>
    obtain ⟨hop, hlow, hhigh, hk⟩ :=
      (eq_formatA_iff (op := 0x0A) k).1 (rfl : encode (.smpAff k) = _)
    simp only [decode, hop, mustBeZero, hlow, hhigh, hk, if_true]
  | smpBmp3 x y =>
    obtain ⟨hop, hzero, hx, hy⟩ :=
      (eq_formatP_iff (op := 0x0B) x y).1 (rfl : encode (.smpBmp3 x y) = _)
    simp only [decode, hop, mustBeZero, hzero, hx, hy, if_true]
  | smpBmp4 x y =>
    obtain ⟨hop, hzero, hx, hy⟩ :=
      (eq_formatP_iff (op := 0x0C) x y).1 (rfl : encode (.smpBmp4 x y) = _)
    simp only [decode, hop, mustBeZero, hzero, hx, hy, if_true]
  | smpBmp5 x y =>
    obtain ⟨hop, hzero, hx, hy⟩ :=
      (eq_formatP_iff (op := 0x0D) x y).1 (rfl : encode (.smpBmp5 x y) = _)
    simp only [decode, hop, mustBeZero, hzero, hx, hy, if_true]
  | winEval x y ow =>
    obtain ⟨hop, hzero, hx, hy, how⟩ :=
      (eq_formatW_iff (op := 0x0E) x y ow).1 (rfl : encode (.winEval x y ow) = _)
    simp only [decode, hop, mustBeZero, hzero, hx, hy, how, if_true]
  | bldObj color prio semi =>
    obtain ⟨hop, hzero, hcolor, hprio, hsemi⟩ :=
      (eq_formatO_iff (op := 0x11) color prio semi).1 (rfl : encode (.bldObj color prio semi) = _)
    simp only [decode, hop, mustBeZero, hzero, hcolor, hprio, hsemi, if_true]
  | bldBg0 color prio =>
    obtain ⟨hop, hzero, hcolor, hprio⟩ :=
      (eq_formatG_iff (op := 0x12) color prio).1 (rfl : encode (.bldBg0 color prio) = _)
    simp only [decode, hop, mustBeZero, hzero, hcolor, hprio, if_true]
  | bldBg1 color prio =>
    obtain ⟨hop, hzero, hcolor, hprio⟩ :=
      (eq_formatG_iff (op := 0x13) color prio).1 (rfl : encode (.bldBg1 color prio) = _)
    simp only [decode, hop, mustBeZero, hzero, hcolor, hprio, if_true]
  | bldBg2 color prio =>
    obtain ⟨hop, hzero, hcolor, hprio⟩ :=
      (eq_formatG_iff (op := 0x14) color prio).1 (rfl : encode (.bldBg2 color prio) = _)
    simp only [decode, hop, mustBeZero, hzero, hcolor, hprio, if_true]
  | bldBg3 color prio =>
    obtain ⟨hop, hzero, hcolor, hprio⟩ :=
      (eq_formatG_iff (op := 0x15) color prio).1 (rfl : encode (.bldBg3 color prio) = _)
    simp only [decode, hop, mustBeZero, hzero, hcolor, hprio, if_true]
  | bldBackdrop color =>
    obtain ⟨hop, hzero, hcolor⟩ :=
      (eq_formatK_iff (op := 0x16) color).1 (rfl : encode (.bldBackdrop color) = _)
    simp only [decode, hop, mustBeZero, hzero, hcolor, if_true]
  | bldComposite en =>
    obtain ⟨hop, hzero, hen⟩ :=
      (eq_formatC_iff (op := 0x17) en).1 (rfl : encode (.bldComposite en) = _)
    simp only [decode, hop, mustBeZero, hzero, hen, if_true]
  | renderRow y =>
    obtain ⟨hop, hlow, hhigh, hy⟩ :=
      (eq_formatY_iff (op := 0x1A) y).1 (rfl : encode (.renderRow y) = _)
    simp only [decode, hop, mustBeZero, hlow, hhigh, hy, if_true]

/-- Settles O2, by what the decoder can do. -/
theorem encodeDecode : Obligations.EncodeDecode := by
  unfold Obligations.EncodeDecode
  intro w i h
  obtain ⟨-, -, -, -, henc⟩ := decode_eq_ok h
  exact henc.symm

/-- Settles O3: the row that a word matches is the one of its opcode, and the row that it decodes by is the one of its
command's mnemonic. -/
theorem decodesRowIffMatch : Obligations.DecodesRowIffMatch := by
  unfold Obligations.DecodesRowIffMatch
  intro r hr w
  constructor
  · intro hmatch
    have hop := ((r.match_iff w).1 hmatch).1
    rcases decode_cases w with ⟨hnone, -⟩ | ⟨r', hr', hop', hcase⟩
    · exact absurd hop (hnone r hr)
    obtain rfl := opcodeTable_inj r hr r' hr' (.inl (hop.symm.trans hop'))
    rcases hcase with ⟨-, i, hi, hm, -⟩ | ⟨hno, -⟩
    · exact ⟨i, hi, hm⟩
    · exact absurd hmatch hno
  · rintro ⟨i, hi, hm⟩
    obtain ⟨r', hr', hmatch, hm', -⟩ := decode_eq_ok hi
    rwa [opcodeTable_inj r hr r' hr' (.inr (hm.symm.trans hm'))]

/-- Settles O4: the decoder rejects a word for its opcode iff no row has the opcode, and a word of a row's opcode for a
reserved bit iff it does not match that row, hence no row. -/
theorem illegalWordKinds : Obligations.IllegalWordKinds := by
  unfold Obligations.IllegalWordKinds
  intro w op listed
  have hop : (field w 24 8).toNat = op := by
    have := w.isLt
    rw [toNat_field, Nat.mod_eq_of_lt (by omega)]
  have hlisted : (∃ r ∈ opcodeTable, field w 24 8 = r.opcode) ↔ listed :=
    (listed_iff _).trans (by rw [hop])
  rw [← hlisted]
  rcases decode_cases w with ⟨hnone, herr⟩ | ⟨r, hr, hrow, hcase⟩
  · have hno : ¬∃ r ∈ opcodeTable, field w 24 8 = r.opcode := fun ⟨r, hr, h⟩ => hnone r hr h
    simp [herr, hno]
  have hrows : (∀ r' ∈ opcodeTable, w &&& r'.format.mask ≠ r'.matchWord) ↔ w &&& r.format.mask ≠ r.matchWord := by
    refine ⟨fun h => h r hr, fun h r' hr' hmatch => h ?_⟩
    rwa [opcodeTable_inj r hr r' hr' (.inl (hrow.symm.trans ((r'.match_iff w).1 hmatch).1))]
  rw [hrows]
  have hsome : ∃ r ∈ opcodeTable, field w 24 8 = r.opcode := ⟨r, hr, hrow⟩
  rcases hcase with ⟨hmatch, i, hi, -, -⟩ | ⟨hno, herr⟩
  · simp [hi, hsome, hmatch]
  · simp [herr, hsome, hno]

/-- Settles O5: the decoder run on each of the words. -/
theorem sampleWordsDecode : Obligations.SampleWordsDecode := by
  unfold Obligations.SampleWordsDecode
  decide

end Sys2Proof
end

section
/-! PROOFS. The assembler (R106): which numbers are an operand, and which lines are a command. -/

namespace Sys2Proof.Machine

theorem operand_eq_some {k v : Nat} {b : BitVec k} : operand k v = some b ↔ v = b.toNat := by
  rw [operand]
  split
  next h => rw [Option.some_inj, ← BitVec.toNat_inj, BitVec.toNat_ofNat, Nat.mod_eq_of_lt h]
  next h => exact ⟨nofun, fun e => absurd (e ▸ b.isLt) h⟩

theorem flagOperand_eq_some {v : Nat} {b : Bool} : flagOperand v = some b ↔ v = b.toNat := by
  rw [flagOperand]
  by_cases h0 : v = 0
  · cases b <;> simp [h0]
  · by_cases h1 : v = 1
    · cases b <;> simp [h1]
    · cases b <;> simp [h0, h1]

theorem xyCommand_eq_some {f : BitVec 8 → BitVec 8 → Instr} {x y : Nat} {i : Instr} :
    xyCommand f x y = some i ↔ ∃ a b, x = a.toNat ∧ y = b.toNat ∧ f a b = i := by
  simp only [xyCommand, Option.bind_eq_some_iff, Option.map_eq_some_iff, operand_eq_some, exists_and_left]

theorem layerCommand_eq_some {f : Colour → BitVec 3 → Instr} {color prio : Nat} {i : Instr} :
    layerCommand f color prio = some i ↔ ∃ c p, color = c.toNat ∧ prio = p.toNat ∧ f c p = i := by
  simp only [layerCommand, Option.bind_eq_some_iff, Option.map_eq_some_iff, operand_eq_some, exists_and_left]

/-- A line assembles to no command but the one that it spells. -/
theorem spells_of_assemble {m : String} {ops : List Nat} {i : Instr} (h : assemble m ops = some i) :
    m = i.mnemonic ∧ ops = sourceOperands i := by
  revert h
  unfold assemble
  split <;>
    simp only [Option.some_inj, reduceCtorEq, Option.ite_none_right_eq_some, Option.bind_eq_some_iff,
      Option.map_eq_some_iff, operand_eq_some, flagOperand_eq_some, xyCommand_eq_some, layerCommand_eq_some,
      false_implies]
  next => rintro ⟨slot, rfl, rfl⟩; exact ⟨rfl, rfl⟩
  next => rintro ⟨slot, rfl, rfl⟩; exact ⟨rfl, rfl⟩
  next => rintro ⟨x, y, rfl, rfl, rfl⟩; exact ⟨rfl, rfl⟩
  next => rintro rfl; exact ⟨rfl, rfl⟩
  next => rintro ⟨x, y, rfl, rfl, rfl⟩; exact ⟨rfl, rfl⟩
  next => rintro ⟨bg, rfl, x, y, rfl, rfl, rfl⟩; exact ⟨rfl, rfl⟩
  next bg =>
    rintro ⟨hbg, k, hk, rfl⟩
    exact ⟨rfl, congrArg (fun v => [v]) (by omega : bg = 2 + k.toNat)⟩
  next => rintro ⟨x, y, rfl, rfl, rfl⟩; exact ⟨rfl, rfl⟩
  next => rintro ⟨x, y, rfl, rfl, rfl⟩; exact ⟨rfl, rfl⟩
  next => rintro ⟨x, y, rfl, rfl, rfl⟩; exact ⟨rfl, rfl⟩
  next => rintro ⟨ow, rfl, x, y, rfl, rfl, rfl⟩; exact ⟨rfl, rfl⟩
  next => rintro rfl; exact ⟨rfl, rfl⟩
  next => rintro ⟨semi, rfl, color, prio, rfl, rfl, rfl⟩; exact ⟨rfl, rfl⟩
  next => rintro ⟨color, prio, rfl, rfl, rfl⟩; exact ⟨rfl, rfl⟩
  next => rintro ⟨color, prio, rfl, rfl, rfl⟩; exact ⟨rfl, rfl⟩
  next => rintro ⟨color, prio, rfl, rfl, rfl⟩; exact ⟨rfl, rfl⟩
  next => rintro ⟨color, prio, rfl, rfl, rfl⟩; exact ⟨rfl, rfl⟩
  next => rintro ⟨color, rfl, rfl⟩; exact ⟨rfl, rfl⟩
  next => rintro ⟨en, rfl, rfl⟩; exact ⟨rfl, rfl⟩
  next => rintro rfl; exact ⟨rfl, rfl⟩
  next => rintro rfl; exact ⟨rfl, rfl⟩
  next => rintro ⟨y, rfl, rfl⟩; exact ⟨rfl, rfl⟩
  next => rintro rfl; exact ⟨rfl, rfl⟩
  next => rintro rfl; exact ⟨rfl, rfl⟩

/-- A command assembles from what spells it. -/
theorem assemble_spelled (i : Instr) : assemble i.mnemonic (sourceOperands i) = some i := by
  cases i with
  | qpop | bldReset | accSeed | accStep | startFrame | shouldFlush => rfl
  | markDrawn a | markHidden a | bldBackdrop a | renderRow a =>
    exact Option.map_eq_some_iff.2 ⟨a, operand_eq_some.2 rfl, rfl⟩
  | query x y | smpObj x y | smpBmp3 x y | smpBmp4 x y | smpBmp5 x y => exact xyCommand_eq_some.2 ⟨x, y, rfl, rfl, rfl⟩
  | bldBg0 color prio | bldBg1 color prio | bldBg2 color prio | bldBg3 color prio =>
    exact layerCommand_eq_some.2 ⟨color, prio, rfl, rfl, rfl⟩
  | bldComposite en => exact Option.map_eq_some_iff.2 ⟨en, flagOperand_eq_some.2 rfl, rfl⟩
  | smpTile bg x y =>
    exact Option.bind_eq_some_iff.2 ⟨bg, operand_eq_some.2 rfl, xyCommand_eq_some.2 ⟨x, y, rfl, rfl, rfl⟩⟩
  | winEval x y ow =>
    exact Option.bind_eq_some_iff.2 ⟨ow, flagOperand_eq_some.2 rfl, xyCommand_eq_some.2 ⟨x, y, rfl, rfl, rfl⟩⟩
  | bldObj color prio semi =>
    exact Option.bind_eq_some_iff.2
      ⟨semi, flagOperand_eq_some.2 rfl, layerCommand_eq_some.2 ⟨color, prio, rfl, rfl, rfl⟩⟩
  | smpAff k =>
    exact Option.ite_none_right_eq_some.2
      ⟨Nat.le_add_right 2 _, Option.map_eq_some_iff.2 ⟨k, operand_eq_some.2 (Nat.add_sub_cancel_left 2 _), rfl⟩⟩

/-- Settles O6: a line that assembles spells its command, and what spells a command assembles to it. -/
theorem assemblerSpellsEveryCommand : Obligations.AssemblerSpellsEveryCommand := by
  unfold Obligations.AssemblerSpellsEveryCommand
  intro m ops i
  refine ⟨spells_of_assemble, ?_⟩
  rintro ⟨rfl, rfl⟩
  exact assemble_spelled i

end Sys2Proof.Machine
end

section
/-! PROOFS. The raw layouts of `OAM` and `OBJAFF` (R111) and of `REG` (R110): a raw word is its fields. -/

namespace Sys2Proof.Machine

/-! ### Changes of one entry of a table -/

section
variable {α : Type} {n k : Nat} (v : Vector α n) (i : BitVec k) (h : 2 ^ k = n)

theorem Tab.update_id : Tab.update v i (fun a => a) h = v := by
  simp [Tab.update, Tab.set, Tab.get]

theorem Tab.update_update (f g : α → α) :
    Tab.update (Tab.update v i f h) i g h = Tab.update v i (fun a => g (f a)) h := by
  simp [Tab.update, Tab.set, Tab.get]

end

/-! ### `OAM` and `OBJAFF` (R111) -/

/-- Fields of one slot stored one after another change that slot alone. -/
theorem foldl_putStore_oamField (s : SlotNo) (fs : List OamField) (h : HostMem) :
    fs.foldl (fun h f => putStore (.oamField s f) h) h =
      { h with oam := Tab.update h.oam s fun a => fs.foldl (fun a f => putOamField f a) a } := by
  induction fs generalizing h with
  | nil => simp only [List.foldl_nil, Tab.update_id]
  | cons f fs ih => rw [List.foldl_cons, ih]; simp only [putStore, Tab.update_update, List.foldl_cons]

theorem putOamHalf_slot (s : SlotNo) (v : Half) (h : HostMem) :
    putOamHalf (8 * s.toNat) v h = { h with oam := Tab.update h.oam s (putAttr0 v) } ∧
    putOamHalf (8 * s.toNat + 2) v h = { h with oam := Tab.update h.oam s (putAttr1 v) } ∧
    putOamHalf (8 * s.toNat + 4) v h = { h with oam := Tab.update h.oam s (putAttr2 v) } := by
  refine ⟨?_, ?_, ?_⟩ <;> simp [putOamHalf, Nat.mul_add_div]

theorem putOamHalf_parameter (g : BitVec 5) {j : Nat} (hj : j < 4) (v : Half) (h : HostMem) :
    putOamHalf (8 * (4 * g.toNat + j) + 6) v h = { h with objAff := Tab.update h.objAff g (putParameter j v) } := by
  have hmod : (8 * (4 * g.toNat + j) + 6) % 8 = 6 := by omega
  have hslot : (8 * (4 * g.toNat + j) + 6) / 8 = 4 * g.toNat + j := by omega
  have hg : (4 * g.toNat + j) / 4 = g.toNat := by omega
  have hj' : (4 * g.toNat + j) % 4 = j := by omega
  simp only [putOamHalf, hmod, hslot, hg, hj', BitVec.ofNat_toNat, BitVec.setWidth_eq]

/-- Settles O12: a raw word changes one slot, or one group, as its fields stored one after another do. -/
theorem rawOamWordIsItsFields : Obligations.RawOamWordIsItsFields := by
  unfold Obligations.RawOamWordIsItsFields
  intro s v h onSlot
  obtain ⟨h0, h1, h2⟩ := putOamHalf_slot s v h
  have hslot (fs : List OamField) : onSlot fs = _ := foldl_putStore_oamField s fs h
  refine ⟨h0.trans ?_, h1.trans ?_, h2.trans ?_, fun g => ⟨?_, ?_, ?_, ?_⟩⟩
  · rw [hslot]; rfl
  · rw [hslot]; rfl
  · rw [hslot]; rfl
  · exact putOamHalf_parameter g (j := 0) (by decide) v h
  · exact putOamHalf_parameter g (j := 1) (by decide) v h
  · exact putOamHalf_parameter g (j := 2) (by decide) v h
  · exact putOamHalf_parameter g (j := 3) (by decide) v h

/-! ### `REG` (R110) -/

/-- Fields of `REG` stored one after another change `REG` alone. -/
theorem foldl_putStore_regField (fs : List RegField) (h : HostMem) :
    fs.foldl (fun h f => putStore (.regField f) h) h =
      { h with reg := fs.foldl (fun r f => putRegField f r) h.reg } := by
  induction fs generalizing h with
  | nil => rfl
  | cons f fs ih => rw [List.foldl_cons, ih]; rfl

/-- A group of flags after some of its bits are replaced, each by its own bit of a word. -/
theorem getLsbD_foldl_setBit {w : Nat} (l : List (Fin w)) (b : BitVec w) (c : Nat → Bool) (i : Fin w) :
    (l.foldl (fun b j => setBit b j.val (c j.val)) b).getLsbD i.val = if i ∈ l then c i.val else b.getLsbD i.val := by
  induction l generalizing b with
  | nil => simp
  | cons j l ih =>
    rw [List.foldl_cons, ih, getLsbD_setBit _ _ _ _ j.isLt]
    by_cases hl : i ∈ l
    · simp [hl]
    · by_cases hj : i = j
      · simp [hj]
      · simp [hl, hj, Fin.val_ne_of_ne hj]

/-- All bits of a group replaced one after another by neighbouring bits of a word are a field of the word. -/
theorem foldl_setBit {w : Nat} (b : BitVec w) (v : Half) (o : Nat) :
    (List.finRange w).foldl (fun b l => setBit b l.val (v.getLsbD (o + l.val))) b = v.extractLsb' o w := by
  refine BitVec.eq_of_getLsbD_eq fun i hi => ?_
  rw [getLsbD_foldl_setBit _ b (fun n => v.getLsbD (o + n)) ⟨i, hi⟩, if_pos (List.mem_finRange _)]
  simp [hi]

theorem setBit_two (b : BitVec 2) (v : Half) (o : Nat) :
    setBit (setBit b 0 (v.getLsbD o)) 1 (v.getLsbD (o + 1)) = v.extractLsb' o 2 :=
  foldl_setBit b v o

theorem setBit_four (b : BitVec 4) (v : Half) (o : Nat) :
    setBit (setBit (setBit (setBit b 0 (v.getLsbD o)) 1 (v.getLsbD (o + 1))) 2 (v.getLsbD (o + 2))) 3
      (v.getLsbD (o + 3)) = v.extractLsb' o 4 :=
  foldl_setBit b v o

theorem foldl_targetA (l : List (Fin 6)) (c : Fin 6 → Bool) (r : Reg) :
    (l.map fun j => RegField.targetA j (c j)).foldl (fun r f => putRegField f r) r =
      { r with bldcnt :=
        { r.bldcnt with targetA := l.foldl (fun b j => setBit b j.val (c j)) r.bldcnt.targetA } } := by
  induction l generalizing r with
  | nil => rfl
  | cons j l ih => rw [List.map_cons, List.foldl_cons, ih]; rfl

theorem foldl_targetB (l : List (Fin 6)) (c : Fin 6 → Bool) (r : Reg) :
    (l.map fun j => RegField.targetB j (c j)).foldl (fun r f => putRegField f r) r =
      { r with bldcnt :=
        { r.bldcnt with targetB := l.foldl (fun b j => setBit b j.val (c j)) r.bldcnt.targetB } } := by
  induction l generalizing r with
  | nil => rfl
  | cons j l ih => rw [List.map_cons, List.foldl_cons, ih]; rfl

/-- A layer-enable mask, from the bits of a word that are stored into its six flags (R110). -/
theorem rawMask_eq (m : LayerMask) (v : Half) (o : Nat) : rawMask (v.extractLsb' o 6) =
    { bg := setBit (setBit (setBit (setBit m.bg 0 (v.getLsbD o)) 1 (v.getLsbD (o + 1))) 2 (v.getLsbD (o + 2))) 3
        (v.getLsbD (o + 3)),
      obj := v.getLsbD (o + 4), blend := v.getLsbD (o + 5) } := by
  simp only [setBit_four, rawMask, LayerMask.mk.injEq]
  refine ⟨BitVec.eq_of_getLsbD_eq fun i hi => ?_, ?_, ?_⟩
  · simp [hi, show i < 6 by omega]
  · simp
  · simp

theorem onBgCnt_onBgCnt (n : BitVec 2) (f g : BgCnt → BgCnt) (r : Reg) :
    onBgCnt n g (onBgCnt n f r) = onBgCnt n (fun c => g (f c)) r := by
  simp only [onBgCnt, Tab.update_update]

theorem onWin_onWin (w : BitVec 1) (f g : WindowRect → WindowRect) (r : Reg) :
    onWin w g (onWin w f r) = onWin w (fun b => g (f b)) r := by
  simp only [onWin, Tab.update_update]

theorem onWinin_onWinin (w : BitVec 1) (f g : LayerMask → LayerMask) (r : Reg) :
    onWinin w g (onWinin w f r) = onWinin w (fun m => g (f m)) r := by
  simp only [onWinin, Tab.update_update]

theorem onAff_onAff (k : BitVec 1) (f g : BgAffine → BgAffine) (r : Reg) :
    onAff k g (onAff k f r) = onAff k (fun a => g (f a)) r := by
  simp only [onAff, Tab.update_update]

/-! The rows of R110 whose offset depends on a background, a group or a window. -/

theorem putRegHalf_bgCnt (n : BitVec 2) (v : Half) (r : Reg) :
    putRegHalf (0x08 + 2 * n.toNat) v r = onBgCnt n (fun _ => rawBgCnt v) r := by
  have hn := n.isLt
  rw [putRegHalf, if_neg (by omega), if_pos (by omega), Nat.add_sub_cancel_left, Nat.mul_div_cancel_left _ (by decide),
    BitVec.ofNat_toNat, BitVec.setWidth_eq]

theorem putRegHalf_bgHofs (n : BitVec 2) (v : Half) (r : Reg) :
    putRegHalf (0x10 + 4 * n.toNat) v r = { r with bgHofs := Tab.set r.bgHofs n (v.extractLsb' 0 9) } := by
  have hn := n.isLt
  rw [putRegHalf, if_neg (by omega), if_neg (by omega), if_pos (by omega), Nat.add_sub_cancel_left,
    Nat.mul_div_cancel_left _ (by decide), BitVec.ofNat_toNat, BitVec.setWidth_eq]

theorem putRegHalf_bgVofs (n : BitVec 2) (v : Half) (r : Reg) :
    putRegHalf (0x12 + 4 * n.toNat) v r = { r with bgVofs := Tab.set r.bgVofs n (v.extractLsb' 0 9) } := by
  have hn := n.isLt
  rw [putRegHalf, if_neg (by omega), if_neg (by omega), if_neg (by omega), if_pos (by omega),
    show (0x12 + 4 * n.toNat - 0x10) / 4 = n.toNat by omega, BitVec.ofNat_toNat, BitVec.setWidth_eq]

theorem putRegHalf_aff (k : BitVec 1) {o : Nat} (ho : o < 16) (v : Half) (r : Reg) :
    putRegHalf (0x20 + o + 16 * k.toNat) v r = onAff k (putAffHalf o v) r := by
  have hk := k.isLt
  rw [putRegHalf, if_neg (by omega), if_neg (by omega), if_neg (by omega), if_neg (by omega), if_pos (by omega),
    show (0x20 + o + 16 * k.toNat - 0x20) / 16 = k.toNat by omega,
    show (0x20 + o + 16 * k.toNat - 0x20) % 16 = o by omega, BitVec.ofNat_toNat, BitVec.setWidth_eq]

theorem putRegHalf_winColumns (w : BitVec 1) (v : Half) (r : Reg) : putRegHalf (0x40 + 2 * w.toNat) v r =
    onWin w (fun b => { b with right := v.extractLsb' 0 8, left := v.extractLsb' 8 8 }) r := by
  rcases BitVec.eq_zero_or_eq_one w with rfl | rfl <;> rfl

theorem putRegHalf_winRows (w : BitVec 1) (v : Half) (r : Reg) : putRegHalf (0x44 + 2 * w.toNat) v r =
    onWin w (fun b => { b with bottom := v.extractLsb' 0 8, top := v.extractLsb' 8 8 }) r := by
  rcases BitVec.eq_zero_or_eq_one w with rfl | rfl <;> rfl

/-- The two halves of a reference point (R110). -/
theorem putHigh_putLow (x : BitVec 28) (z : Word) :
    putHigh (putLow x (z.extractLsb' 0 16)) (z.extractLsb' 16 16) = z.extractLsb' 0 28 := by
  refine BitVec.eq_of_getLsbD_eq fun i hi => ?_
  simp only [putHigh, putLow, BitVec.getLsbD_append, BitVec.getLsbD_extractLsb']
  by_cases h : i < 16
  · simp [h, hi]
  · simp [h, hi, show i - 16 < 12 by omega, show i - 16 < 16 by omega, show 16 + (i - 16) = i by omega]

/-- A 32-bit word of an affine group is its two halves. -/
theorem putRegWord_aff (k : BitVec 1) {o : Nat} (ho : o + 2 < 16) (z : Word) (r : Reg) :
    putRegWord (0x20 + o + 16 * k.toNat) z r =
      onAff k (fun a => putAffHalf (o + 2) (z.extractLsb' 16 16) (putAffHalf o (z.extractLsb' 0 16) a)) r := by
  rw [putRegWord, putRegHalf_aff k (by omega), Nat.add_right_comm, Nat.add_assoc _ o 2, putRegHalf_aff k ho,
    onAff_onAff]

theorem putAffHalf_odd {o : Nat} (ho : o % 2 = 1) (v : Half) : putAffHalf o v = fun a => a := by
  funext a
  unfold putAffHalf
  split <;> simp_all

/-- An offset that R110 does not list holds no field. -/
theorem putRegHalf_unlisted {off : Nat}
    (h : off % 2 = 1 ∨ off = 0x02 ∨ off = 0x04 ∨ off = 0x06 ∨ off = 0x4E ∨ 0x56 ≤ off) (v : Half) (r : Reg) :
    putRegHalf off v r = r := by
  by_cases haff : 0x20 ≤ off ∧ off < 0x40
  · have hodd : (off - 0x20) % 16 % 2 = 1 := by omega
    rw [putRegHalf, if_neg (by omega), if_neg (by omega), if_neg (by omega), if_neg (by omega), if_pos haff,
      putAffHalf_odd hodd, onAff, Tab.update_id]
  · rw [putRegHalf]
    iterate 15 rw [if_neg (by omega)]

/-- Settles O13, row by row of the table: a row of whole fields is the same change of `REG`, and a row with a group of
flags is the group that its bits make. -/
theorem rawRegWordIsItsFields : Obligations.RawRegWordIsItsFields := by
  unfold Obligations.RawRegWordIsItsFields
  intro v z h n k fields six targets
  have hfields (fs : List RegField) : fields fs = { h with reg := fs.foldl (fun r f => putRegField f r) h.reg } :=
    foldl_putStore_regField fs h
  have hrow {r : Reg} {fs : List RegField} (hr : r = fs.foldl (fun r f => putRegField f r) h.reg) :
      { h with reg := r } = fields fs := hr ▸ (hfields fs).symm
  refine ⟨hrow ?_, hrow ?_, hrow ?_, hrow ?_, hrow ?_, hrow ?_, hrow ?_, hrow ?_, hrow ?_, hrow ?_, hrow ?_, hrow ?_,
    hrow ?_, hrow ?_, hrow ?_, hrow ?_, hrow ?_, hrow ?_, ?_⟩
  · rw [putRegHalf, if_pos rfl, rawDispcnt, ← setBit_four h.reg.dispcnt.bgEnable v 8,
      ← setBit_two h.reg.dispcnt.winEnable v 13]
    rfl
  · rw [putRegHalf_bgCnt]
    simp only [List.foldl_cons, List.foldl_nil, putRegField, onBgCnt_onBgCnt]
    rfl
  · exact putRegHalf_bgHofs n v h.reg
  · exact putRegHalf_bgVofs n v h.reg
  · exact putRegHalf_aff k (o := 0) (by decide) v h.reg
  · exact putRegHalf_aff k (o := 2) (by decide) v h.reg
  · exact putRegHalf_aff k (o := 4) (by decide) v h.reg
  · exact putRegHalf_aff k (o := 6) (by decide) v h.reg
  · refine (putRegWord_aff k (o := 8) (by decide) z h.reg).trans ?_
    simp only [putAffHalf, putHigh_putLow]
    rfl
  · refine (putRegWord_aff k (o := 12) (by decide) z h.reg).trans ?_
    simp only [putAffHalf, putHigh_putLow]
    rfl
  · rw [putRegHalf_winColumns]
    simp only [List.foldl_cons, List.foldl_nil, putRegField, onWin_onWin]
  · rw [putRegHalf_winRows]
    simp only [List.foldl_cons, List.foldl_nil, putRegField, onWin_onWin]
  · simp only [six, List.cons_append, List.nil_append, List.foldl_cons, List.foldl_nil, putRegField, onWinin_onWinin]
    exact congrArg₂ (fun f g => onWinin 1 f (onWinin 0 g h.reg)) (funext fun m => rawMask_eq m v 8)
      (funext fun m => rawMask_eq m v 0)
  · simp only [six, List.cons_append, List.nil_append, List.foldl_cons, List.foldl_nil, putRegField]
    exact congrArg₂ (fun f g => { h.reg with winout := f, winobj := g }) (rawMask_eq h.reg.winout v 0)
      (rawMask_eq h.reg.winobj v 8)
  · rfl
  · simp only [targets, List.foldl_append, foldl_targetA, foldl_targetB, foldl_setBit]
    rfl
  · rfl
  · rfl
  · exact fun off hoff => congrArg (fun r => { h with reg := r }) (putRegHalf_unlisted hoff v h.reg)

end Sys2Proof.Machine
end

section
/-! PROOFS. The dirty-set port (R109) and the result read port (R108). -/

namespace Sys2Proof.Machine

/-! ### Dirty bits (R109) -/

/-- `SHOULD_FLUSH` sets no dirty bit (R255, R256). -/
theorem shouldFlush_dirty (s : State) (n : Nat) (h : (shouldFlush s).dirty.getLsbD n = true) :
    s.dirty.getLsbD n = true := by
  revert h
  refine guarded_keeps (P := fun t => t.dirty.getLsbD n = true → s.dirty.getLsbD n = true) (fun _ h => ?_) fun _ h => h
  rw [BitVec.getLsbD_and, Bool.and_eq_true] at h
  exact h.1

/-- Settles O9: of all that a step can do, only the dirty-set port, reset and a command write `DIRTY`, and of the
commands only `SHOULD_FLUSH`, which has one word. -/
theorem dirtyBitsChange : Obligations.DirtyBitsChange := by
  unfold Obligations.DirtyBitsChange
  constructor
  · intro s m rest hin
    refine ⟨{ s with inbox := rest, dirty := s.dirty ||| m }, ?_, rfl, fun n => BitVec.getLsbD_or⟩
    rw [step, hin]
    rfl
  intro s t x rest hin h hne
  rcases step_cases h with ⟨-, rfl⟩ | ⟨x', rest', hin', hx⟩
  · exact absurd rfl hne
  obtain ⟨rfl, rfl⟩ : x = x' ∧ rest = rest' := by simpa [hin] using hin'
  rcases hx with ⟨w, i, rfl, hw, rfl⟩ | ⟨w, e, -, -, rfl⟩ | ⟨st, -, -, rfl⟩ | ⟨m, rfl, -⟩ | ⟨v, rfl⟩ | ⟨m, rfl, rfl⟩
  · obtain rfl := (WritesOnly.execNext i _).dirty hne
    obtain ⟨-, -, -, -, rfl⟩ := decode_eq_ok hw
    exact .inr (.inr ⟨rfl, shouldFlush_dirty _⟩)
  · exact absurd rfl hne
  · exact absurd rfl hne
  · exact .inl ⟨m, rfl⟩
  · exact absurd rfl hne
  · exact .inr (.inl ⟨rfl, rfl⟩)

/-! ### Packed registers (R108) -/

/-- Fields side by side are the sum of the fields at their places. -/
theorem toNat_append_eq {m n : Nat} (x : BitVec m) (y : BitVec n) : (x ++ y).toNat = y.toNat + x.toNat * 2 ^ n := by
  rw [BitVec.toNat_append, ← Nat.shiftLeft_add_eq_or_of_lt y.isLt, Nat.shiftLeft_eq, Nat.add_comm]

theorem toNat_packQRes (q : QRes) : (packQRes q).toNat = q.slot.toNat + q.valid.toNat * 2 ^ 7 := by
  rw [packQRes, toNat_append_eq, BitVec.toNat_ofBool]

theorem toNat_packORes (r : ORes) : (packORes r).toNat = r.color.toNat + r.prio.toNat * 2 ^ 15 + r.semi.toNat * 2 ^ 17 +
    r.objwin.toNat * 2 ^ 18 + r.found.toNat * 2 ^ 19 := by
  simp only [packORes, toNat_append_eq, BitVec.toNat_ofBool]
  omega

theorem toNat_packBRes (r : BRes) : (packBRes r).toNat = r.color.toNat + r.valid.toNat * 2 ^ 15 := by
  rw [packBRes, toNat_append_eq, BitVec.toNat_ofBool]

theorem toNat_packMask (m : LayerMask) :
    (packMask m).toNat = m.bg.toNat + m.obj.toNat * 2 ^ 4 + m.blend.toNat * 2 ^ 5 := by
  simp only [packMask, toNat_append_eq, BitVec.toNat_ofBool]
  omega

theorem toNat_packLayer (l : Layer) : (packLayer l).toNat = l.color.toNat + l.prio.toNat * 2 ^ 15 +
    l.tgtA.toNat * 2 ^ 18 + l.tgtB.toNat * 2 ^ 19 + l.blendedObj.toNat * 2 ^ 20 + l.layer.toNat * 2 ^ 21 := by
  simp only [packLayer, toNat_append_eq, BitVec.toNat_ofBool]
  omega

theorem toNat_packSnap (n : Snap) : (packSnap n).toNat = n.tag.toNat + n.en.toNat * 2 ^ 3 + n.mos.toNat * 2 ^ 7 +
    n.granH.toNat * 2 ^ 11 + n.granV.toNat * 2 ^ 15 + n.page.toNat * 2 ^ 19 := by
  simp only [packSnap, toNat_append_eq, BitVec.toNat_ofBool]
  omega

/-- A register of at most 32 bits keeps its value on the port: "unused high bits read 0" (R108). -/
theorem toNat_widen {k : Nat} (v : BitVec k) (hk : k ≤ 32 := by decide) : (v.setWidth 32).toNat = v.toNat :=
  BitVec.toNat_setWidth_of_le hk

theorem resultRegister_qset (s : State) {r : Nat} (hlo : 8 ≤ r) (hhi : r ≤ 11) {n : Nat} (hn : n < 32) :
    (resultRegister s r).getLsbD n = s.qset.getLsbD (32 * (r - 8) + n) := by
  obtain rfl | rfl | rfl | rfl : r = 8 ∨ r = 9 ∨ r = 10 ∨ r = 11 := by omega
  all_goals simp [resultRegister, hn]

theorem rank_lt (b : BuState) : BuState.rank b < 2 ^ 32 := by
  cases b <;> decide

theorem resultRegister_unlisted (s : State) {r : Nat} (hr : 21 ≤ r) : resultRegister s r = 0 := by
  obtain ⟨n, rfl⟩ := Nat.exists_eq_add_of_le' hr
  rfl

/-- Settles O14, register by register: the port delivers the packed fields, whose value is their sum. -/
theorem resultReadPort : Obligations.ResultReadPort := by
  unfold Obligations.ResultReadPort
  constructor
  · intro s row col rest hin hrow hcol
    refine ⟨{ s with inbox := rest, readData := (outCell s row col).setWidth 32 }, ?_, rfl, ?_⟩
    · rw [step, hin]
      exact if_pos ⟨hrow, hcol⟩
    · rw [toNat_widen, outCell, outIndex, cfg_screenW, Nat.mul_comm]
  intro s r rest hin
  refine ⟨{ s with inbox := rest, readData := resultRegister s r }, by rw [step, hin]; rfl, rfl, ?_⟩
  refine ⟨?_, ?_, ?_, ?_, ?_, ?_, ?_, ?_, fun hlo hhi n hn => resultRegister_qset s hlo hhi hn, ?_, ?_, ?_, ?_, ?_, ?_,
    ?_, ?_, resultRegister_unlisted s⟩
  · rintro rfl; exact toNat_widen s.fault
  · rintro rfl; rfl
  · rintro rfl; exact (toNat_widen _).trans (toNat_packQRes s.qres)
  · rintro rfl; exact (toNat_widen _).trans (toNat_packORes s.ores)
  · rintro rfl; exact (toNat_widen _).trans (toNat_packBRes s.bres)
  · rintro rfl; exact (toNat_widen _).trans (toNat_packMask s.wres)
  · rintro rfl; exact toNat_widen s.cres
  · rintro rfl; exact (toNat_widen _).trans (BitVec.toNat_ofBool s.flush)
  · rintro rfl; rfl
  · rintro rfl; rfl
  · rintro rfl; rfl
  · rintro rfl; rfl
  · rintro rfl; exact Nat.mod_eq_of_lt (rank_lt s.bu.state)
  · rintro l (⟨rfl, rfl⟩ | ⟨rfl, rfl⟩)
    · exact (toNat_widen _).trans (toNat_packLayer s.bu.slot0)
    · exact (toNat_widen _).trans (toNat_packLayer s.bu.slot1)
  · rintro rfl; exact toNat_widen s.dirty
  · rintro rfl; exact (toNat_widen _).trans (toNat_packSnap s.snap)

end Sys2Proof.Machine
end

section
/-! PROOFS. `QDRAIN` (R107, R148), and the size tables and palette entries (R89, R113, R114). -/

namespace Sys2Proof.Machine

/-! ### `QDRAIN` -/

/-- The members of a set in ascending order. -/
def members (q : SlotSet) : List SlotNo := allSlots.filter (bitOf q)

/-- The least member is the first. -/
theorem lowest_eq_head? (q : SlotSet) : lowest q = (members q).head? := by
  rw [lowest, members, List.head?_filter]

/-- Without its least member a set has the others left, in the same order. -/
theorem members_removeSlot {q : SlotSet} {slot : SlotNo} {rest : List SlotNo} (h : members q = slot :: rest) :
    members (removeSlot slot q) = rest := by
  have hfilter : members (removeSlot slot q) = (members q).filter fun t => !decide (t = slot) := by
    rw [members, members, List.filter_filter]
    exact List.filter_congr fun t _ => bitOf_removeSlot slot t q
  have hne : ∀ t ∈ rest, t ≠ slot := by
    have hsorted : (slot :: rest).Pairwise fun a b => a.toNat < b.toNat := h ▸ allSlots_sorted.filter _
    rw [List.pairwise_cons] at hsorted
    rintro t ht rfl
    exact Nat.lt_irrefl _ (hsorted.1 t ht)
  rw [hfilter, h, List.filter_cons_of_neg (by simp), List.filter_eq_self]
  simpa using hne

theorem members_eq_nil {q : SlotSet} (h : members q = []) : q = 0 := by
  refine (lowest_eq_none q).1 ?_
  rw [lowest_eq_head?, h, List.head?_nil]

/-- Pops enough for every member and one more deliver the members and leave the set empty. -/
theorem drain_eq (n : Nat) (s : State) (h : (members s.qset).length < n) :
    drain n s = ({ s with qset := 0, qres := { valid := false, slot := 0 } }, members s.qset) := by
  induction n generalizing s with
  | zero => exact absurd h (Nat.not_lt_zero _)
  | succ n ih =>
    cases hm : members s.qset with
    | nil =>
      have hpop : qpop s = { s with qres := { valid := false, slot := 0 } } := by
        rw [qpop, lowest_eq_head?, hm]; rfl
      have hq := members_eq_nil hm
      simp only [drain, hpop, Bool.false_eq_true, if_false]
      rw [← hq]
    | cons slot rest =>
      have hpop : qpop s = { s with qset := removeSlot slot s.qset, qres := { valid := true, slot := slot } } := by
        rw [qpop, lowest_eq_head?, hm]; rfl
      have hrest := members_removeSlot hm
      rw [hm, List.length_cons] at h
      simp only [drain, hpop, if_true]
      rw [ih _ (by rw [hrest]; omega), hrest]

/-- Settles O31: the 128 slots leave room for every member and the last pop, which finds the set empty. -/
theorem qdrainVisitsMembersInOrder : Obligations.QdrainVisitsMembersInOrder := by
  unfold Obligations.QdrainVisitsMembersInOrder
  intro s
  have hlen : (members s.qset).length < 129 :=
    Nat.lt_of_le_of_lt (List.length_filter_le _ allSlots) (by simp [allSlots])
  rw [qdrain, drain_eq 129 s hlen]
  exact ⟨rfl, rfl⟩

/-! ### Tables and palette entries -/

/-- A palette colour is the low 15 bits of its entry (R71, R89). -/
theorem toNat_palColor (pal : Memory 8) (bank i : Nat) : (palColor pal bank i).toNat =
    ((Memory.read pal (bank * 0x200 + 2 * i)).toNat + 256 * (Memory.read pal (bank * 0x200 + 2 * i + 1)).toNat) %
      2 ^ 15 := by
  rw [palColor, BitVec.extractLsb'_toNat, Nat.shiftRight_zero, Memory.readHalf_toNat]

/-- Settles O37: each cell of the tables looked up, and the entry of a colour read little-endian. -/
theorem sizeTablesAndPaletteEntries : Obligations.SizeTablesAndPaletteEntries := by
  unfold Obligations.SizeTablesAndPaletteEntries
  exact ⟨by decide, by decide, by decide, fun _ _ => rfl, toNat_palColor⟩

end Sys2Proof.Machine
end

section
/-! PROOFS. Rows (R275, R276): what a row depends on, which cells of `OUT` it writes, and `RENDER_FRAME` (R107). -/

namespace Sys2Proof.Machine

/-! ### The layers of a pixel depend on host-owned state, the accumulators and the results of this pixel -/

/-- Two states that agree in all that the blend unit's part of a pixel reads once `SMP_OBJ`, `WIN_EVAL` and `BLD_RESET`
are done. -/
structure SameLayers (s t : State) : Prop where
  host : s.host = t.host
  acc : s.acc = t.acc
  ores : s.ores = t.ores
  wres : s.wres = t.wres
  bu : s.bu = t.bu

/-- A guarded command that faults in both states, or in neither. -/
theorem SameLayers.guarded {s t s' t' : State} (h : SameLayers s t) (h' : SameLayers s' t') (bits : FaultSet)
    (i : Instr) : SameLayers (Machine.guarded bits i s s') (Machine.guarded bits i t t') := by
  rcases guarded_cases bits i s s' with ⟨hb, hs⟩ | ⟨hb, hs⟩
  · subst hb
    exact h'
  · rw [hs, Machine.guarded, if_neg hb]
    exact ⟨h.host, h.acc, h.ores, h.wres, h.bu⟩

theorem SameLayers.setBres {s t : State} (h : SameLayers s t) (v : Option Colour) :
    SameLayers (setBres v s) (setBres v t) ∧ (setBres v s).bres = (setBres v t).bres := by
  obtain ⟨hhost, hacc, hores, hwres, hbu⟩ := h
  cases v <;> exact ⟨⟨hhost, hacc, hores, hwres, hbu⟩, rfl⟩

theorem SameLayers.sampleBg {s t : State} (h : SameLayers s t) {kind : BgKind} (hkind : kind ≠ .none) (n : BitVec 2)
    (x y : BitVec 8) : SameLayers (sampleBg kind n x y s) (sampleBg kind n x y t) ∧
      (sampleBg kind n x y s).bres = (sampleBg kind n x y t).bres := by
  cases kind with
  | none => exact absurd rfl hkind
  | tile => simpa only [Machine.sampleBg, smpTile, h.host] using h.setBres _
  | affine k => simpa only [Machine.sampleBg, smpAff, h.host, h.acc] using h.setBres _
  | bitmap3 => simpa only [Machine.sampleBg, smpBmp3, h.host] using h.setBres _
  | bitmap4 => simpa only [Machine.sampleBg, smpBmp4, h.host] using h.setBres _
  | bitmap5 => simpa only [Machine.sampleBg, smpBmp5, h.host] using h.setBres _

/-- A guarded command that changes the blend unit alone, by what it reads of host-owned state and the blend unit. -/
theorem SameLayers.guarded_bu {s t : State} (h : SameLayers s t) (bits : BlendUnit → FaultSet) (i : Instr)
    (f : HostMem → BlendUnit → BlendUnit) :
    SameLayers (Machine.guarded (bits s.bu) i s { s with bu := f s.host s.bu })
      (Machine.guarded (bits t.bu) i t { t with bu := f t.host t.bu }) := by
  rw [← h.bu]
  refine h.guarded ?_ _ i
  exact ⟨h.host, h.acc, h.ores, h.wres, congrArg (f · s.bu) h.host⟩

theorem SameLayers.bldBg {s t : State} (h : SameLayers s t) (n : BitVec 2) (color : Colour) (prio : BitVec 3) :
    SameLayers (bldBg n color prio s) (bldBg n color prio t) := by
  unfold Machine.bldBg
  split <;> exact h.guarded_bu
    (fun bu => priorityFault prio ||| orderFault (decide (BuState.rank bu.state < 2 + _))) _
    (fun host bu => { offer (layerOf host.reg.bldcnt _ color prio false) bu with state := _ })

theorem SameLayers.bldObj {s t : State} (h : SameLayers s t) (color : Colour) (prio : BitVec 3) (semi : Bool) :
    SameLayers (bldObj color prio semi s) (bldObj color prio semi t) :=
  h.guarded_bu (fun bu => priorityFault prio ||| orderFault (BuState.rank bu.state == 0)) _
    (fun host bu => { bu with state := .objectAdded, slot0 := layerOf host.reg.bldcnt 4 color prio semi })

theorem SameLayers.bldBackdrop {s t : State} (h : SameLayers s t) (color : Colour) :
    SameLayers (bldBackdrop color s) (bldBackdrop color t) :=
  h.guarded_bu (fun bu => orderFault (decide (BuState.rank bu.state ≤ 5))) _
    (fun host bu => { offerBackdrop (layerOf host.reg.bldcnt 5 color 4 false) bu with state := .backdropAdded })

theorem SameLayers.objLayer {s t : State} (h : SameLayers s t) : SameLayers (objLayer s) (objLayer t) := by
  unfold Machine.objLayer
  rw [← h.ores, ← h.wres]
  split
  · exact h.bldObj _ _ _
  · exact h

theorem SameLayers.bgLayer {s t : State} (h : SameLayers s t) (x y : BitVec 8) (n : BitVec 2) :
    SameLayers (bgLayer x y n s) (bgLayer x y n t) := by
  have hactive : bgActive s n = bgActive t n := by simp only [bgActive, h.host, h.wres]
  rw [Machine.bgLayer, Machine.bgLayer, ← hactive]
  split
  next ha =>
    have hkind : bgKind s.host.reg.dispcnt.mode n ≠ .none := by
      rintro hnone
      simp [bgActive, hnone] at ha
    obtain ⟨hsample, hbres⟩ := h.sampleBg hkind n x y
    dsimp only
    rw [← h.host, ← hbres, ← hsample.host]
    split
    · exact hsample.bldBg n _ _
    · exact hsample
  next => exact h

theorem SameLayers.bldComposite {s t : State} (h : SameLayers s t) (en : Bool) :
    SameLayers (bldComposite en s) (bldComposite en t) := by
  rw [Machine.bldComposite, Machine.bldComposite, ← h.bu]
  refine h.guarded ?_ _ _
  exact ⟨h.host, h.acc, h.ores, h.wres, rfl⟩

/-! ### The order of a pixel's blend commands is legal (R220, R275) -/

theorem sampleBg_bu (kind : BgKind) (n : BitVec 2) (x y : BitVec 8) (s : State) :
    (sampleBg kind n x y s).bu = s.bu := by
  cases kind with
  | none => rfl
  | tile | affine | bitmap3 | bitmap4 | bitmap5 => exact setBres_bu s _

/-- A blend unit that a backdrop may still be added to. -/
def TakesBackdrop (s : State) : Prop := BuState.rank s.bu.state ≤ 5

theorem TakesBackdrop.bldReset (s : State) : TakesBackdrop (bldReset s) := by
  rw [TakesBackdrop, bldReset_bu]
  decide

theorem TakesBackdrop.objLayer {s : State} (h : TakesBackdrop s) : TakesBackdrop (objLayer s) := by
  rw [Machine.objLayer]
  split
  · exact guarded_keeps (fun _ => (by decide : BuState.rank .objectAdded ≤ 5)) fun _ => h
  · exact h

theorem TakesBackdrop.addBackground {s : State} (h : TakesBackdrop s) (i : Instr) (n : BitVec 2) (color : Colour)
    (prio : BitVec 3) : TakesBackdrop (addBackground i n color prio s) := by
  refine guarded_keeps (P := TakesBackdrop) (fun _ => ?_) fun _ => h
  show BuState.rank (bgAdded n) ≤ 5
  rw [rank_bgAdded]
  omega

theorem TakesBackdrop.bldBg {s : State} (h : TakesBackdrop s) (n : BitVec 2) (color : Colour) (prio : BitVec 3) :
    TakesBackdrop (bldBg n color prio s) := by
  rw [Machine.bldBg]
  split <;> exact h.addBackground _ _ color prio

theorem TakesBackdrop.bgLayer {s : State} (h : TakesBackdrop s) (x y : BitVec 8) (n : BitVec 2) :
    TakesBackdrop (bgLayer x y n s) := by
  have hsample : TakesBackdrop (Machine.sampleBg (bgKind s.host.reg.dispcnt.mode n) n x y s) := by
    rwa [TakesBackdrop, sampleBg_bu]
  rw [Machine.bgLayer]
  split
  · dsimp only
    split
    · exact hsample.bldBg n _ _
    · exact hsample
  · exact h

theorem TakesBackdrop.bldBackdrop {s : State} (h : TakesBackdrop s) (color : Colour) :
    (bldBackdrop color s).bu.state = .backdropAdded := by
  have hrank : BuState.rank s.bu.state ≤ 5 := h
  rw [Machine.bldBackdrop, (orderFault_eq_zero _).2 (decide_eq_true hrank), guarded_zero]

/-- After the backdrop the unit composites (R230). -/
theorem bldComposite_cres {s : State} (h : s.bu.state = .backdropAdded) (en : Bool) :
    (bldComposite en s).cres = (compositeColor cfg s.host.reg s.bu en).setWidth 16 := by
  rw [bldComposite, (orderFault_eq_zero _).2 (by rw [h]; rfl), guarded_zero]

/-! ### A pixel -/

/-- The commands of a pixel up to the last background. -/
def pixelLayers (x y : BitVec 8) (s : State) : State :=
  bgLayer x y 3 (bgLayer x y 2 (bgLayer x y 1 (bgLayer x y 0
    (objLayer (bldReset (winEval x y (smpObj x y s).ores.objwin (smpObj x y s)))))))

/-- The commands of a pixel up to its backdrop. -/
def pixelBackdrop (x y : BitVec 8) (s : State) : State :=
  bldBackdrop (backdropColor (pixelLayers x y s).host) (pixelLayers x y s)

theorem pixelColour_eq (x y : BitVec 8) (s : State) :
    pixelColour x y s = bldComposite (pixelBackdrop x y s).wres.blend (pixelBackdrop x y s) := by
  simp only [pixelColour, pixelBackdrop, pixelLayers]

theorem pixelBackdrop_state (x y : BitVec 8) (s : State) : (pixelBackdrop x y s).bu.state = .backdropAdded := by
  rw [pixelBackdrop, pixelLayers]
  exact TakesBackdrop.bldBackdrop
    ((((((TakesBackdrop.bldReset _).objLayer).bgLayer x y 0).bgLayer x y 1).bgLayer x y 2).bgLayer x y 3) _

/-- Two states that agree in all that a pixel reads: host-owned state, the visibility index and the accumulators. -/
structure SamePixel (s t : State) : Prop where
  host : s.host = t.host
  colset : s.colset = t.colset
  rowset : s.rowset = t.rowset
  objc : s.objc = t.objc
  acc : s.acc = t.acc

theorem scan_congr {s t : State} (hhost : s.host = t.host) (hobjc : s.objc = t.objc) (x y n : Nat) (q : SlotSet)
    (r : ORes) : scan s x y n q r = scan t x y n q r := by
  induction n generalizing q r with
  | zero => rfl
  | succ n ih =>
    rw [scan, scan]
    cases lowest q with
    | none => rfl
    | some slot => simp only [ih, hhost, hobjc]

theorem SamePixel.sampleObject {s t : State} (h : SamePixel s t) (x y : Nat) :
    sampleObject s x y = sampleObject t x y := by
  have hvisible : visibleAt s x y = visibleAt t x y := by simp only [visibleAt, h.colset, h.rowset]
  rw [Machine.sampleObject, Machine.sampleObject, hvisible, scan_congr h.host h.objc]

theorem SamePixel.pixelBackdrop {s t : State} (h : SamePixel s t) (x y : BitVec 8) :
    SameLayers (pixelBackdrop x y s) (pixelBackdrop x y t) := by
  have hores := h.sampleObject x.toNat y.toNat
  have hwin := congrArg (fun r : ORes => windowEval cfg s.host.reg x.toNat y.toNat r.objwin) hores
  have hreset : SameLayers (bldReset (winEval x y (smpObj x y s).ores.objwin (smpObj x y s)))
      (bldReset (winEval x y (smpObj x y t).ores.objwin (smpObj x y t))) :=
    ⟨h.host, h.acc, hores, hwin.trans (by rw [h.host]; rfl), rfl⟩
  have hlayers : SameLayers (pixelLayers x y s) (pixelLayers x y t) :=
    (((hreset.objLayer.bgLayer x y 0).bgLayer x y 1).bgLayer x y 2).bgLayer x y 3
  rw [Machine.pixelBackdrop, Machine.pixelBackdrop, ← hlayers.host]
  exact hlayers.bldBackdrop _

/-- States that agree in what a pixel reads give the pixel one colour. -/
theorem SamePixel.pixelColour_cres {s t : State} (h : SamePixel s t) (x y : BitVec 8) :
    (pixelColour x y s).cres = (pixelColour x y t).cres := by
  have hdrop := h.pixelBackdrop x y
  rw [pixelColour_eq, pixelColour_eq, bldComposite_cres (pixelBackdrop_state x y s),
    bldComposite_cres (pixelBackdrop_state x y t), hdrop.host, hdrop.bu, hdrop.wres]

theorem SameHost.keptInRow (s : State) : KeptInRow (SameHost s) :=
  ⟨fun i u _ hu => hu.trans (.execNext i u), fun _ _ _ _ hu => hu.trans ⟨rfl, rfl, rfl⟩,
    fun _ _ _ _ hu => hu.trans ⟨rfl, rfl, rfl⟩⟩

theorem SameOffRow.keptInRow (s : State) : KeptInRow (SameOffRow s) :=
  ⟨fun _ _ => SameOffRow.command, fun _ _ _ _ h => { h with }, fun _ _ _ _ h => { h with }⟩

theorem SamePixel.pixel {s t : State} (h : SamePixel s t) (y x : BitVec 8) : SamePixel (pixel y x s) (pixel y x t) := by
  have hhost (u : State) := ((SameHost.keptInRow u).pixel x y u (.refl u)).host
  have hoff (u : State) := (SameOffRow.keptInRow u).pixel x y u ⟨rfl, rfl, rfl, rfl, rfl, rfl, rfl⟩
  have hcolour : SameLayers (pixelColour x y s) (pixelColour x y t) := by
    have hdrop := h.pixelBackdrop x y
    rw [pixelColour_eq, pixelColour_eq, ← hdrop.wres]
    exact hdrop.bldComposite _
  exact {
    host := by rw [hhost, hhost, h.host]
    colset := by rw [(hoff s).colset, (hoff t).colset, h.colset]
    rowset := by rw [(hoff s).rowset, (hoff t).rowset, h.rowset]
    objc := by rw [(hoff s).objc, (hoff t).objc, h.objc]
    acc := by simp only [Machine.pixel, accStep, writeOut_host, writeOut_acc, hcolour.host, hcolour.acc] }

/-! ### The cells of a row -/

/-- The columns of the screen, as their numbers. -/
theorem mem_columns {c : Nat} (hc : c < 240) : ∃ x ∈ columns, x.toNat = c := by
  refine ⟨BitVec.ofNat 8 c, List.mem_map.2 ⟨c, List.mem_range.2 hc, rfl⟩, ?_⟩
  rw [BitVec.toNat_ofNat, Nat.mod_eq_of_lt (by omega)]

/-- The work of one column of row `y`: it keeps the relation `R`, and in related states it writes one value to the cell
of the column. -/
def PaintsColumn (R : State → State → Prop) (y : BitVec 8) (f : State → BitVec 8 → State) : Prop :=
  ∀ s t x, R s t → R (f s x) (f t x) ∧ ∃ v, (f s x).out = Memory.write s.out (outIndex y.toNat x.toNat) v ∧
    (f t x).out = Memory.write t.out (outIndex y.toNat x.toNat) v

/-- Columns painted in related states hold the same values afterwards, and so do cells that held the same before. -/
theorem PaintsColumn.foldl {R : State → State → Prop} {y : BitVec 8} {f : State → BitVec 8 → State}
    (hf : PaintsColumn R y f) (l : List (BitVec 8)) {s t : State} (hR : R s t) (hs : Memory.wf s.out)
    (ht : Memory.wf t.out) (c : Nat) (hc : (∃ x ∈ l, x.toNat = c) ∨ outCell s y.toNat c = outCell t y.toNat c) :
    outCell (l.foldl f s) y.toNat c = outCell (l.foldl f t) y.toNat c := by
  induction l generalizing s t with
  | nil => simpa using hc
  | cons x l ih =>
    obtain ⟨hR', v, hvs, hvt⟩ := hf s t x hR
    refine ih hR' (hvs ▸ Memory.write_wf _ _ v hs) (hvt ▸ Memory.write_wf _ _ v ht) ?_
    have hcell (u : State) (hu : Memory.wf u.out)
        (hvu : (f u x).out = Memory.write u.out (outIndex y.toNat x.toNat) v) : outCell (f u x) y.toNat c =
          if outIndex y.toNat c = outIndex y.toNat x.toNat then v else outCell u y.toNat c := by
      rw [outCell, hvu, Memory.read_write _ _ _ _ hu, outCell]
    rw [hcell s hs hvs, hcell t ht hvt]
    by_cases hx : x.toNat = c
    · exact .inr (by rw [hx, if_pos rfl, if_pos rfl])
    · rcases hc with ⟨x', hx', hc⟩ | hc
      · rcases List.mem_cons.1 hx' with rfl | hl
        · exact absurd hc hx
        · exact .inl ⟨x', hl, hc⟩
      · exact .inr (by rw [hc])

theorem paintsColumn_pixel (y : BitVec 8) : PaintsColumn SamePixel y fun t x => pixel y x t := by
  intro s t x h
  refine ⟨h.pixel y x, _, pixel_out y x s, ?_⟩
  rw [h.pixelColour_cres x y]
  exact pixel_out y x t

/-- Two states that agree in all that a row reads: host-owned state and the visibility index. -/
structure SameRow (s t : State) : Prop where
  host : s.host = t.host
  colset : s.colset = t.colset
  rowset : s.rowset = t.rowset
  objc : s.objc = t.objc

theorem paintsColumn_blank (y : BitVec 8) : PaintsColumn SameRow y fun t x => writeOut y.toNat x.toNat 0 t :=
  fun _ _ _ h => ⟨⟨h.host, h.colset, h.rowset, h.objc⟩, 0, rfl, rfl⟩

/-- Both entries of a table of two replaced: nothing of the old table is left. -/
theorem Tab.set_both {α : Type} (v w : Vector α 2) (a b : α) :
    Tab.set (Tab.set v 0#1 a) 1#1 b = Tab.set (Tab.set w 0#1 a) 1#1 b := by
  refine Vector.ext fun i hi => ?_
  obtain rfl | rfl : i = 0 ∨ i = 1 := by omega
  · simp [Tab.set]
  · simp [Tab.set]

/-- `ACC_SEED` brings states that agree in what a row reads to states that agree in what a pixel reads. -/
theorem SameRow.accSeed {s t : State} (h : SameRow s t) : SamePixel (accSeed s) (accSeed t) where
  host := h.host
  colset := h.colset
  rowset := h.rowset
  objc := h.objc
  acc := by
    rw [Machine.accSeed, Machine.accSeed, h.host]
    exact Tab.set_both _ _ _ _

/-- A row of the screen in a mode that is not reserved is rendered, or blanked (R276). -/
theorem renderRow_eq {y : BitVec 8} {s : State} (hy : y.toNat < 160) (hmode : s.host.reg.dispcnt.mode ≤ 5) :
    renderRow y s = if s.host.reg.dispcnt.forcedBlank then blankRow y s else renderColumns y s := by
  rw [renderRow, (rowFault_eq_zero y).2 hy, (modeFault_eq_zero s).2 hmode, BitVec.or_zero, guarded_zero]

/-- A row depends on host-owned state and the visibility index alone. -/
theorem SameRow.outCell_renderRow {s t : State} (h : SameRow s t) {y : BitVec 8} (hy : y.toNat < 160)
    (hmode : s.host.reg.dispcnt.mode ≤ 5) (hs : Memory.wf s.out) (ht : Memory.wf t.out) {c : Nat} (hc : c < 240) :
    outCell (renderRow y s) y.toNat c = outCell (renderRow y t) y.toNat c := by
  rw [renderRow_eq hy hmode, renderRow_eq hy (h.host ▸ hmode), ← h.host]
  split
  · exact (paintsColumn_blank y).foldl columns h hs ht c (.inl (mem_columns hc))
  · exact (paintsColumn_pixel y).foldl columns h.accSeed hs ht c (.inl (mem_columns hc))

/-- The cell of row `r` and column `c` is as it was in `s`. -/
def KeepsCell (s : State) (r c : Nat) (t : State) : Prop := Memory.wf t.out ∧ outCell t r c = outCell s r c

theorem KeepsCell.write {s t t' : State} {r c y x : Nat} {v : Half} (h : KeepsCell s r c t) (hr : r ≠ y) (hc : c < 240)
    (hx : x < 240) (hout : t'.out = Memory.write t.out (outIndex y x) v) : KeepsCell s r c t' := by
  have hne : outIndex r c ≠ outIndex y x := by
    rw [outIndex, outIndex, cfg_screenW]
    omega
  refine ⟨hout ▸ Memory.write_wf _ _ v h.1, ?_⟩
  rw [outCell, hout, Memory.read_write _ _ _ _ h.1, if_neg hne]
  exact h.2

/-- A row writes no cell of another row. -/
theorem outCell_renderRow_ne {y : BitVec 8} {s : State} (hs : Memory.wf s.out) {r c : Nat} (hr : r ≠ y.toNat)
    (hc : c < 240) : outCell (renderRow y s) r c = outCell s r c := by
  have hstart : KeepsCell s r c s := ⟨hs, rfl⟩
  suffices h : KeepsCell s r c (renderRow y s) from h.2
  refine guarded_keeps (P := KeepsCell s r c) (fun _ => ?_) fun _ => hstart
  split
  · exact foldl_columns_keeps (P := KeepsCell s r c) hstart fun t x hx ht => ht.write hr hc hx rfl
  · exact foldl_columns_keeps (P := KeepsCell s r c) hstart fun t x hx ht => ht.write hr hc hx (pixel_out y x t)

theorem SameRow.renderRow {s t : State} (h : SameRow s t) (y : BitVec 8) : SameRow s (renderRow y t) := by
  have hhost := (SameHost.execNext (.renderRow y) t).host
  obtain ⟨hcol, hrow, hobjc, -⟩ := SameOffRow.renderRow y t
  exact ⟨h.host.trans hhost.symm, h.colset.trans hcol.symm, h.rowset.trans hrow.symm, h.objc.trans hobjc.symm⟩

/-! ### Rows one after another -/

/-- Rows one after another, from a state that reads as `s` does: each cell of a row that is among them, or that was as
`s` renders it before, is as `s` renders it. -/
theorem outCell_foldl_renderRow {s t : State} (hmode : s.host.reg.dispcnt.mode ≤ 5) (hs : Memory.wf s.out)
    (h : SameRow s t) (ht : MemoryInv t) (rows : List (BitVec 8)) {y : BitVec 8} (hy : y.toNat < 160) {c : Nat}
    (hc : c < 240) (hrow : y ∈ rows ∨ outCell t y.toNat c = outCell (renderRow y s) y.toNat c) :
    outCell (rows.foldl (fun u z => renderRow z u) t) y.toNat c = outCell (renderRow y s) y.toNat c := by
  induction rows generalizing t with
  | nil => simpa using hrow
  | cons z rows ih =>
    refine ih (h.renderRow z) (MemoryInv.execNext (.renderRow z) t ht) ?_
    by_cases hz : y = z
    · subst hz
      exact .inr (h.outCell_renderRow hy hmode hs ht.out.1 hc).symm
    · rw [outCell_renderRow_ne ht.out.1 (fun e => hz (BitVec.eq_of_toNat_eq e)) hc]
      exact hrow.imp (fun hmem => (List.mem_cons.1 hmem).resolve_left hz) id

theorem execAll_eq_next (l : List Instr) (s : State) : execAll l s = .next (l.foldl (fun t i => execNext i t) s) := by
  induction l generalizing s with
  | nil => rfl
  | cons i l ih => rw [execAll, exec_eq_next, bindNext, ih, List.foldl_cons]

/-- Settles O56: `RENDER_FRAME` renders each row in a state that differs from the first in nothing that a row reads, and
the rows after it leave its cells alone. -/
theorem renderFrameIsEveryRow : Obligations.RenderFrameIsEveryRow := by
  unfold Obligations.RenderFrameIsEveryRow
  intro s hmode hmem
  refine ⟨_, execAll_eq_next renderFrame s, fun y hy => ⟨_, exec_eq_next (.renderRow y) s, fun c hc => ?_⟩⟩
  have hfold : renderFrame.foldl (fun t i => execNext i t) s =
      ((List.range 160).map (BitVec.ofNat 8)).foldl (fun u z => renderRow z u) s := by
    rw [renderFrame, List.foldl_map, List.foldl_map]
    rfl
  have hy' : y ∈ (List.range 160).map (BitVec.ofNat 8) :=
    List.mem_map.2 ⟨y.toNat, List.mem_range.2 hy, BitVec.ofNat_toNat ..⟩
  rw [hfold]
  exact outCell_foldl_renderRow hmode hmem.out.1 ⟨rfl, rfl, rfl, rfl⟩ hmem _ hy hc (.inl hy')

end Sys2Proof.Machine
end

section
/-! PROOFS. The visibility index (R142, R145, R147, R148): when `MARK_DRAWN` and `MARK_HIDDEN` do nothing,
what they leave in the sets and the cache otherwise, and what `QUERY` and `QPOP` deliver. -/

namespace Sys2Proof.Machine

/-! ### Clipped bounds (R144) -/

theorem clampTo_eq (hi : Nat) (v : Int) : (clampTo hi v : Int) = max 0 (min (hi : Int) v) := by
  rw [clampTo]
  omega

/-- On the screen the clipped bounds hold what the rectangle holds. -/
theorem clampTo_le_lt_iff {hi i : Nat} (h : i < hi) (a b : Int) :
    clampTo hi a ≤ i ∧ i < clampTo hi b ↔ a ≤ i ∧ (i : Int) < b := by
  have ha := clampTo_eq hi a
  have hb := clampTo_eq hi b
  omega

/-! ### `MARK_DRAWN` (R142) -/

/-- Only the reserved shape has an empty texture (R113). -/
theorem geometry_texW_eq_zero (a : ObjAttr) : (geometry a).texW = 0 ↔ a.shape = 3 := by
  have hgeometry : (geometry a).texW = (objDim a.shape a.size).1 := by rw [geometry, spriteSize_eq]
  rw [hgeometry]
  rcases objDim_range a.shape a.size with ⟨hshape, hdim⟩ | ⟨hshape, hdim, -⟩
  · exact iff_of_true (by rw [hdim]) hshape
  · exact iff_of_false (fun h => by simp [h] at hdim) hshape

theorem markDrawnSkips_iff (a : ObjAttr) (c : ObjCache) : markDrawnSkips a c = true ↔
    c.texW ≠ 0 ∨ (a.affine = false ∧ a.doubleSize = true) ∨ a.shape = 3 := by
  simp [markDrawnSkips, drawn, geometry_texW_eq_zero, or_assoc]

/-- Settles O26: `markDrawnSkips` is the three grounds for doing nothing, and the clipped bounds of the geometry hold
exactly the columns and rows of the screen that the rectangle covers. -/
theorem markDrawnResult : Obligations.MarkDrawnResult := by
  unfold Obligations.MarkDrawnResult
  intro slot s a f tw th y0 skip
  have hskips : markDrawnSkips a (Tab.get s.objc slot) = true ↔ skip := markDrawnSkips_iff a _
  have hgeometry : geometry a =
      { texW := tw, texH := th, rectX := a.x.toInt, rectY := y0, rectW := f * tw, rectH := f * th,
        cx := a.x.toInt + (f * tw / 2 : Nat), cy := y0 + (f * th / 2 : Nat),
        clipX0 := clampTo 240 a.x.toInt, clipX1 := clampTo 240 (a.x.toInt + f * tw),
        clipY0 := clampTo 160 y0, clipY1 := clampTo 160 (y0 + f * th) } := by
    simp only [geometry, spriteSize_eq, spriteX, spriteY, Nat.cast_mul, a, f, tw, th, y0]
  refine ⟨fun hskip => ?_, fun hskip => ⟨fillSlot slot (geometry a) s, ?_, rfl, fun o x hx => ?_, fun o y hy => ?_,
    fun o ho => ?_, ?_⟩⟩
  · rw [exec_eq_next, execNext, markDrawn, if_pos (hskips.2 hskip)]
  · rw [exec_eq_next, execNext, markDrawn, if_neg (mt hskips.1 hskip)]
  · simp only [fillSlot, hgeometry]
    rw [bitOf_overRange_insertSlot, clampTo_le_lt_iff hx, or_comm]
  · simp only [fillSlot, hgeometry]
    rw [bitOf_overRange_insertSlot, clampTo_le_lt_iff hy, or_comm]
  · exact Tab.get_set_ne _ _ _ _ _ ho.symm
  · simp only [fillSlot, hgeometry, Tab.get_set_self, true_and]
    exact ⟨clampTo_eq .., clampTo_eq .., clampTo_eq .., clampTo_eq ..⟩

/-! ### `MARK_HIDDEN` (R145) -/

theorem markHidden_of_hidden {slot : SlotNo} {s : State} (h : (Tab.get s.objc slot).texW = 0) :
    markHidden slot s = s :=
  (markHidden_cases slot s).resolve_right fun hcase => hcase.1 h

theorem markHidden_of_drawn {slot : SlotNo} {s : State} (h : (Tab.get s.objc slot).texW ≠ 0) :
    markHidden slot s = clearSlot slot (Tab.get s.objc slot) s := by
  simp [markHidden, drawn, h, clearSlot]

theorem clearSlot_texW (slot : SlotNo) (c : ObjCache) (s : State) :
    (Tab.get (clearSlot slot c s).objc slot).texW = 0 := by
  simp [clearSlot]

/-- A hidden slot is in no set (R41). -/
theorem VisibilityInv.not_mem_of_hidden {s : State} (h : VisibilityInv s) {slot : SlotNo}
    (hhidden : (Tab.get s.objc slot).texW = 0) :
    (∀ (x : Nat) (hx : x < 240), bitOf s.colset[x] slot = false) ∧
      ∀ (y : Nat) (hy : y < 160), bitOf s.rowset[y] slot = false :=
  ⟨fun x hx => Bool.eq_false_iff.2 fun hbit => ((h.cols slot x hx).1 hbit).1 hhidden,
    fun y hy => Bool.eq_false_iff.2 fun hbit => ((h.rows slot y hy).1 hbit).1 hhidden⟩

/-- Settles O27: a drawn slot is emptied by `clearSlot`, which keeps the invariant of R41 and leaves the slot hidden. -/
theorem markHiddenEmptiesSlot : Obligations.MarkHiddenEmptiesSlot := by
  unfold Obligations.MarkHiddenEmptiesSlot
  intro slot s c
  have hcleared := clearSlot_texW slot c s
  refine ⟨fun hhidden => ?_, fun hdrawn => ⟨clearSlot slot c s, ?_, rfl, fun o x hx => ?_, fun o y hy => ?_,
    fun o => ?_, fun hinv => (hinv.clearSlot slot).not_mem_of_hidden hcleared, ?_⟩⟩
  · rw [exec_eq_next, execNext, markHidden_of_hidden hhidden]
  · rw [exec_eq_next, execNext, markHidden_of_drawn hdrawn]
  · exact (bitOf_overRange_removeSlot ..).trans and_comm
  · exact (bitOf_overRange_removeSlot ..).trans and_comm
  · exact (Tab.get_set ..).trans (if_congr eq_comm rfl rfl)
  · rw [exec_eq_next, execNext, markHidden_of_hidden hcleared]

/-- Inserting a slot over a range of sets that do not have it, and removing it over the same range, changes nothing. -/
theorem overRange_removeSlot_insertSlot {n : Nat} (slot : SlotNo) (lo hi : Nat) (v : Vector SlotSet n)
    (h : ∀ (i : Nat) (hi : i < n), bitOf v[i] slot = false) :
    overRange (removeSlot slot) lo hi (overRange (insertSlot slot) lo hi v) = v := by
  refine Vector.ext fun i hi => slotSet_ext _ _ fun o => Bool.eq_iff_iff.2 ?_
  rw [bitOf_overRange_removeSlot, bitOf_overRange_insertSlot]
  by_cases ho : o = slot
  · simp [ho, h i hi]
  · simp [ho]

/-- Settles O28: a `MARK_DRAWN` that does nothing leaves the slot hidden; one that fills it caches the very bounds that
`MARK_HIDDEN` empties, and the invariant of R41 says that the slot was in no set before. -/
theorem hideUndoesDraw : Obligations.HideUndoesDraw := by
  unfold Obligations.HideUndoesDraw
  intro slot s t h hinv hhidden hexec
  obtain rfl : t = markDrawn slot s := eq_execNext_of_exec hexec
  refine ⟨_, exec_eq_next .., ?_⟩
  rw [execNext]
  obtain ⟨hcols, hrows⟩ := hinv.not_mem_of_hidden hhidden
  rcases markDrawn_cases slot s with e | ⟨-, hshape, e⟩ <;> rw [e]
  · rw [markHidden_of_hidden (s := { s with host := h }) hhidden]
    exact ⟨rfl, rfl, hhidden⟩
  · have hget : Tab.get (fillSlot slot (geometry (Tab.get s.host.oam slot)) s).objc slot =
        geometry (Tab.get s.host.oam slot) := Tab.get_set_self ..
    rw [markHidden_of_drawn (by rw [hget]; exact hshape), hget]
    exact ⟨overRange_removeSlot_insertSlot slot _ _ _ hcols, overRange_removeSlot_insertSlot slot _ _ _ hrows,
      clearSlot_texW ..⟩

/-! ### `QUERY` and `QPOP` (R147, R148) -/

/-- The members of the set that `QUERY` loads. -/
theorem bitOf_visibleAt (s : State) (x y : Nat) (o : SlotNo) : bitOf (visibleAt s x y) o = true ↔ Covers s x y o := by
  rw [visibleAt, Covers, cfg_screenW, cfg_screenH]
  split
  · next hoff =>
    refine iff_of_false (by simp) ?_
    rintro ⟨hx, hy, -⟩
    omega
  · next hon =>
    obtain ⟨hx, hy⟩ : x < 240 ∧ y < 160 := by omega
    simp [hx, hy]

/-- Under the invariant of R41 a slot covers a point iff it is drawn and its clipped rectangle holds the point. -/
theorem VisibilityInv.covers_iff {s : State} (h : VisibilityInv s) (x y : Nat) (o : SlotNo) : Covers s x y o ↔
    x < 240 ∧ y < 160 ∧ (Tab.get s.objc o).texW ≠ 0 ∧
      (Tab.get s.objc o).clipX0 ≤ x ∧ x < (Tab.get s.objc o).clipX1 ∧
      (Tab.get s.objc o).clipY0 ≤ y ∧ y < (Tab.get s.objc o).clipY1 := by
  constructor
  · rintro ⟨hx, hy, hcol, hrow⟩
    obtain ⟨hdrawn, hx0, hx1⟩ := (h.cols o x hx).1 hcol
    obtain ⟨-, hy0, hy1⟩ := (h.rows o y hy).1 hrow
    exact ⟨hx, hy, hdrawn, hx0, hx1, hy0, hy1⟩
  · rintro ⟨hx, hy, hdrawn, hx0, hx1, hy0, hy1⟩
    exact ⟨hx, hy, (h.cols o x hx).2 ⟨hdrawn, hx0, hx1⟩, (h.rows o y hy).2 ⟨hdrawn, hy0, hy1⟩⟩

/-- Settles O30: `lowest` answers none of the empty set alone, and else the least member. -/
theorem qpopRemovesLowest : Obligations.QpopRemovesLowest := by
  unfold Obligations.QpopRemovesLowest
  intro s
  refine ⟨_, exec_eq_next .., ?_⟩
  rw [execNext, qpop]
  cases hlow : lowest s.qset with
  | none =>
    have hempty : s.qset = 0 := (lowest_eq_none _).1 hlow
    exact ⟨rfl, fun _ => ⟨hempty, rfl⟩, fun hne => absurd hempty hne⟩
  | some slot =>
    have hne : s.qset ≠ 0 := fun hempty => by simp [(lowest_eq_none _).2 hempty] at hlow
    exact ⟨rfl, fun hempty => absurd hempty hne, fun _ => ⟨rfl, lowest_mem _ _ hlow,
      fun o ho => BitVec.le_def.2 (lowest_le _ _ _ hlow ho), fun o => by simp [and_comm]⟩⟩

/-- Settles O29: `QUERY` loads `visibleAt`, whose members are the slots that cover the point. -/
theorem queryLoadsIntersection : Obligations.QueryLoadsIntersection := by
  unfold Obligations.QueryLoadsIntersection
  intro x y s
  have hcovers (o : SlotNo) := bitOf_visibleAt s x.toNat y.toNat o
  exact ⟨query x y s, exec_eq_next .., rfl, hcovers, fun hinv o => (hcovers o).trans (hinv.covers_iff ..)⟩

end Sys2Proof.Machine
end

section
/-! PROOFS. The colour index of a sprite at a point (R163 to R165): texture coordinates, mosaic, and the texel. -/

namespace Sys2Proof.Machine

/-! ### Mosaic (R164) -/

/-- This hardware takes the floor remainder (D21). -/
theorem mosaicSnap_cfg (v : Int) (g : BitVec 4) : mosaicSnap cfg v g = v - v % (g.toNat + 1) := rfl

/-- Settles O36: what the floor remainder leaves is the step times the quotient, and the remainder is in `[0, step)`. -/
theorem mosaicSnapsDown : Obligations.MosaicSnapsDown := by
  unfold Obligations.MosaicSnapsDown
  intro v g r
  have hr : r = v - v % (g.toNat + 1) := mosaicSnap_cfg v g
  have hstep : (0 : Int) < g.toNat + 1 := by omega
  have hdiv := Int.mul_ediv_add_emod v (g.toNat + 1)
  have hnonneg := Int.emod_nonneg v hstep.ne'
  have hlt := Int.emod_lt_of_pos v hstep
  have hmul : r = (g.toNat + 1) * (v / (g.toNat + 1)) := by omega
  refine ⟨⟨_, hmul⟩, by omega, by omega, fun hv => ?_, ?_⟩
  · exact hmul ▸ mul_nonneg hstep.le (Int.ediv_nonneg hv hstep.le)
  · rintro rfl
    simpa using hr

/-! ### Texture coordinates (R163) -/

/-- One row of the matrix with the shift of R163. -/
theorem affineCoord_eq_shift (m0 m1 : BitVec 16) (dx dy : Int) (half : Nat) :
    affineCoord m0 m1 dx dy half = ((m0.toInt * dx + m1.toInt * dy) >>> (8 : Nat)) + half := by
  rw [affineCoord, floorShift, cfg_frac, Int.shiftRight_eq_div_pow]
  rfl

theorem inTexture_iff (c : ObjCache) (p : Int × Int) :
    inTexture c p = true ↔ 0 ≤ p.1 ∧ p.1 < c.texW ∧ 0 ≤ p.2 ∧ p.2 < c.texH := decide_eq_true_iff

/-- An affine sprite's coordinates, both with the shift of R163, if they are inside its texture. -/
theorem objTexCoord_of_affine {aff : Vector ObjAffine 32} {a : ObjAttr} (h : a.affine = true) (c : ObjCache)
    (x y : Nat) : objTexCoord aff a c x y =
      let g := Tab.get aff a.affGroup
      let tx := ((g.pa.toInt * (x - c.cx) + g.pb.toInt * (y - c.cy)) >>> (8 : Nat)) + (c.texW >>> 1 : Nat)
      let ty := ((g.pc.toInt * (x - c.cx) + g.pd.toInt * (y - c.cy)) >>> (8 : Nat)) + (c.texH >>> 1 : Nat)
      if 0 ≤ tx ∧ tx < c.texW ∧ 0 ≤ ty ∧ ty < c.texH then some (tx, ty) else none := by
  rw [objTexCoord, if_pos h]
  simp only [affineCoord_eq_shift]
  exact if_congr (inTexture_iff c _) rfl rfl

/-- Any other sprite's coordinates: the offset from the origin if it is inside the texture, flipped. -/
theorem objTexCoord_of_plain {aff : Vector ObjAffine 32} {a : ObjAttr} (h : a.affine = false) (c : ObjCache)
    (x y : Nat) : objTexCoord aff a c x y =
      let tx := (x : Int) - c.rectX
      let ty := (y : Int) - c.rectY
      if 0 ≤ tx ∧ tx < c.texW ∧ 0 ≤ ty ∧ ty < c.texH then
        some (flipCoord a.hflip c.texW tx, flipCoord a.vflip c.texH ty)
      else none := by
  rw [objTexCoord, if_neg (Bool.eq_false_iff.1 h)]
  exact if_congr (inTexture_iff c _) rfl rfl

/-- A row of the identity matrix keeps its own offset from the centre and drops the other. -/
theorem affineCoord_identity (d e : Int) (half : Nat) :
    affineCoord 0x0100 0 d e half = d + half ∧ affineCoord 0 0x0100 e d half = d + half := by
  have hone : (0x0100 : BitVec 16).toInt = 256 := by decide
  have hzero : (0 : BitVec 16).toInt = 0 := by decide
  simp only [affineCoord, floorShift, hone, hzero]
  omega

/-- The centre of a sprite of single size is half its texture from its origin (R140, R142). -/
theorem geometry_centre_of_single {a : ObjAttr} (h : a.doubleSize = false) :
    (geometry a).cx = (geometry a).rectX + ((geometry a).texW / 2 : Nat) ∧
      (geometry a).cy = (geometry a).rectY + ((geometry a).texH / 2 : Nat) := by
  simp [geometry, spriteSize, h]

/-- Settles O35: an identity matrix adds the offset from the centre to half the texture, which is the offset from the
origin, and no flip moves it. -/
theorem identityAffineIsPlain : Obligations.IdentityAffineIsPlain := by
  unfold Obligations.IdentityAffineIsPlain
  intro h a x y haff hsingle hh hv hmatrix
  obtain ⟨hcx, hcy⟩ := geometry_centre_of_single hsingle
  have hcoord : objTexCoord h.objAff a (geometry a) x y =
      objTexCoord h.objAff { a with affine := false } (geometry a) x y := by
    have hx : (x : Int) - (geometry a).cx + ((geometry a).texW / 2 : Nat) = x - (geometry a).rectX := by omega
    have hy : (y : Int) - (geometry a).cy + ((geometry a).texH / 2 : Nat) = y - (geometry a).rectY := by omega
    simp only [objTexCoord, haff, hmatrix, if_true, Bool.false_eq_true, if_false, (affineCoord_identity ..).1,
      (affineCoord_identity ..).2, hx, hy, hh, hv, flipCoord]
  rw [objIndex, objIndex, hcoord]
  rfl

/-- The colour index by where the texture coordinates are: inside the texture, the texel there, snapped if the sprite
has mosaic (R160, R164). -/
theorem objIndex_of_texCoord {h : HostMem} {a : ObjAttr} {c : ObjCache} {x y : Nat} {inside : Prop} [Decidable inside]
    {p : Int × Int} (hcoord : objTexCoord h.objAff a c x y = if inside then some p else none) :
    (inside → objIndex h a c x y =
      if a.mosaic then
        objTexel h a c (p.1 - p.1 % (h.reg.mosaic.objH.toNat + 1)).toNat
          (p.2 - p.2 % (h.reg.mosaic.objV.toNat + 1)).toNat
      else objTexel h a c p.1.toNat p.2.toNat) ∧
    (¬inside → objIndex h a c x y = none) := by
  rw [objIndex, hcoord]
  refine ⟨fun hin => ?_, fun hout => by rw [if_neg hout, Option.bind_none]⟩
  rw [if_pos hin, Option.bind_some, mosaicPair]
  split <;> rfl

/-! ### Texels (R165, R88) -/

theorem bitmapMode_iff (m : BitVec 3) : bitmapMode m = true ↔ m = 3 ∨ m = 4 ∨ m = 5 := by
  revert m; decide

/-- The texel of a sprite with the shifts and masks of R165 and R88: the tile unit, the address of the byte, and at
4-bit depth its nibble. -/
theorem objTexel_eq (h : HostMem) (a : ObjAttr) (c : ObjCache) (tx ty : Nat) : objTexel h a c tx ty =
    let unit := if h.reg.dispcnt.obj1d
      then a.tile.toNat + ((ty >>> 3) * (c.texW >>> 3) + (tx >>> 3)) * (if a.color8 then 2 else 1)
      else a.tile.toNat + (ty >>> 3) * 32 + (tx >>> 3) * (if a.color8 then 2 else 1)
    let base := 0x10000 + unit * 32
    let addr := if a.color8 then base + (ty &&& 7) * 8 + (tx &&& 7) else base + (ty &&& 7) * 4 + ((tx &&& 7) >>> 1)
    let b := (Memory.read h.vram addr).toNat
    if (h.reg.dispcnt.mode = 3 ∨ h.reg.dispcnt.mode = 4 ∨ h.reg.dispcnt.mode = 5) ∧ a.tile.toNat < 512 then none
    else if 1024 ≤ unit ∨ addr < 0x10000 ∨ 0x18000 ≤ addr then none
    else some (if a.color8 then b else if tx &&& 1 = 1 then b / 16 else b % 16) := by
  have hmask (v : Nat) : v &&& 7 = v % 8 := Nat.and_two_pow_sub_one_eq_mod v 3
  have hodd : tx % 8 % 2 = tx &&& 1 := by rw [Nat.and_one_is_mod]; omega
  simp only [objTexel, objUnit, texelIndex_eq, objRegion, Bool.and_eq_true, decide_eq_true_eq, bitmapMode_iff, hmask,
    hodd, Nat.shiftRight_eq_div_pow, Nat.pow_one, Nat.reducePow, ite_or]

/-- Settles O33: inside the texture the texel at the snapped coordinates of either formula, and none outside it. -/
theorem objTexelAddress : Obligations.ObjTexelAddress := by
  unfold Obligations.ObjTexelAddress
  intro h a c x y
  refine ⟨fun haff => ?_, fun hplain => ?_⟩
  · have hindex := objIndex_of_texCoord (objTexCoord_of_affine (aff := h.objAff) haff c x y)
    simp only [objTexel_eq] at hindex
    exact hindex
  · have hindex := objIndex_of_texCoord (objTexCoord_of_plain (aff := h.objAff) hplain c x y)
    simp only [objTexel_eq] at hindex
    exact hindex

end Sys2Proof.Machine
end

section
/-! PROOFS. The sprite sampler (R160, R161, R166, R167): the loop over the candidates, who wins, and what is read. -/

namespace Sys2Proof.Machine

/-! ### The loop over the candidates (R160) -/

/-- What slot `o` adds to the result at a point. -/
def addSlot (s : State) (x y : Nat) (r : ORes) (o : SlotNo) : ORes :=
  candidate s.host (Tab.get s.host.oam o) (Tab.get s.objc o) x y r

/-- With rounds enough for every member the loop takes the members in ascending order. -/
theorem scan_eq_foldl (s : State) (x y n : Nat) (q : SlotSet) (r : ORes) (h : (members q).length ≤ n) :
    scan s x y n q r = (members q).foldl (addSlot s x y) r := by
  induction n generalizing q r with
  | zero => rw [List.eq_nil_of_length_eq_zero (Nat.le_zero.1 h), scan, List.foldl_nil]
  | succ n ih =>
    rw [scan, lowest_eq_head?]
    cases hm : members q with
    | nil => rfl
    | cons slot rest =>
      have hrest := members_removeSlot hm
      rw [hm, List.length_cons] at h
      exact (ih _ _ (by rw [hrest]; omega)).trans (by rw [hrest]; rfl)

theorem length_members_le (q : SlotSet) : (members q).length ≤ 128 :=
  (List.length_filter_le _ allSlots).trans (by simp [allSlots])

/-- The candidates at a point, in ascending order. -/
def candidates (s : State) (x y : Nat) : List SlotNo := members (visibleAt s x y)

/-- The 128 rounds of the loop are enough for every candidate. -/
theorem sampleObject_eq_foldl (s : State) (x y : Nat) :
    sampleObject s x y = (candidates s x y).foldl (addSlot s x y) noSprite :=
  scan_eq_foldl s x y cfg.nObj _ _ (length_members_le _)

theorem mem_members {q : SlotSet} {o : SlotNo} : o ∈ members q ↔ bitOf q o = true := by
  simp [members, mem_allSlots]

theorem mem_candidates {s : State} {x y : Nat} {o : SlotNo} : o ∈ candidates s x y ↔ Covers s x y o :=
  mem_members.trans (bitOf_visibleAt s x y o)

theorem candidates_sorted (s : State) (x y : Nat) : (candidates s x y).Pairwise fun a b => a.toNat < b.toNat :=
  allSlots_sorted.filter _

/-! ### One candidate (R166, R167) -/

theorem objOpaque_eq_some {h : HostMem} {a : ObjAttr} {c : ObjCache} {x y idx : Nat} :
    objOpaque h a c x y = some idx ↔ objIndex h a c x y = some idx ∧ idx ≠ 0 := by
  simp [objOpaque, Option.filter_eq_some_iff]

/-- A covering slot is opaque at the point with the index of its texel. -/
theorem opaqueAt_iff {s : State} {x y : Nat} {o : SlotNo} (hc : Covers s x y o) (idx : Nat) :
    OpaqueAt s x y o idx ↔ objOpaque s.host (Tab.get s.host.oam o) (Tab.get s.objc o) x y = some idx := by
  rw [OpaqueAt, objOpaque_eq_some, and_iff_right hc]

theorem OpaqueAt.unique {s : State} {x y : Nat} {o : SlotNo} {i j : Nat} (hi : OpaqueAt s x y o i)
    (hj : OpaqueAt s x y o j) : i = j := by
  obtain ⟨-, hi, -⟩ := hi
  obtain ⟨-, hj, -⟩ := hj
  exact Option.some.inj (hi.symm.trans hj)

/-- The result with slot `o`, its texel of index `idx`, as the winner. -/
def wonBy (s : State) (o : SlotNo) (idx : Nat) (r : ORes) : ORes :=
  let a := Tab.get s.host.oam o
  { r with found := true, prio := a.priority, semi := a.gfxMode == 1#2,
           color := indexColor s.host.pal 1 a.color8 a.palette.toNat idx }

/-- A slot that is no drawable match changes the object-window flag at most; one that is replaces a winner only if its
priority is strictly smaller. -/
theorem addSlot_cases {s : State} {x y : Nat} {o : SlotNo} (hc : Covers s x y o) (r : ORes) :
    ((∀ idx, ¬DrawableAt s x y o idx) ∧ ∃ b, addSlot s x y r o = { r with objwin := b }) ∨
    ∃ idx, DrawableAt s x y o idx ∧
      addSlot s x y r o =
        if r.found = false ∨ (Tab.get s.host.oam o).priority < r.prio then wonBy s o idx r else r := by
  simp only [DrawableAt, opaqueAt_iff hc]
  rw [addSlot, candidate]
  cases hop : objOpaque s.host (Tab.get s.host.oam o) (Tab.get s.objc o) x y with
  | none => exact .inl ⟨by simp, r.objwin, rfl⟩
  | some idx =>
    dsimp only
    by_cases h3 : (Tab.get s.host.oam o).gfxMode = 3#2
    · exact .inl ⟨by simp [h3], r.objwin, by rw [if_pos h3]⟩
    by_cases h2 : (Tab.get s.host.oam o).gfxMode = 2#2
    · exact .inl ⟨by simp [h2], true, by rw [if_neg h3, if_pos h2]⟩
    have hmode : (Tab.get s.host.oam o).gfxMode = 0 ∨ (Tab.get s.host.oam o).gfxMode = 1 := by
      generalize (Tab.get s.host.oam o).gfxMode = m at h2 h3
      revert m; decide
    exact .inr ⟨idx, ⟨rfl, hmode⟩, by rw [if_neg h3, if_neg h2]; exact if_congr (by simp) rfl rfl⟩

/-- An opaque texel of object-window mode sets the object-window flag, and nothing else changes it. -/
theorem objwin_addSlot {s : State} {x y : Nat} {o : SlotNo} (hc : Covers s x y o) (r : ORes) :
    (addSlot s x y r o).objwin = true ↔
      r.objwin = true ∨ ∃ idx, OpaqueAt s x y o idx ∧ (Tab.get s.host.oam o).gfxMode = 2 := by
  simp only [opaqueAt_iff hc]
  rw [addSlot, candidate]
  cases objOpaque s.host (Tab.get s.host.oam o) (Tab.get s.objc o) x y with
  | none => simp
  | some idx =>
    dsimp only
    split
    · next h3 => simp [h3]
    · split
      · next h2 => simp [h2]
      · next h2 => split <;> simp [h2]

theorem objwin_foldl_addSlot {s : State} {x y : Nat} {l : List SlotNo} (hc : ∀ o ∈ l, Covers s x y o) (r : ORes) :
    (l.foldl (addSlot s x y) r).objwin = true ↔
      r.objwin = true ∨ ∃ o ∈ l, ∃ idx, OpaqueAt s x y o idx ∧ (Tab.get s.host.oam o).gfxMode = 2 := by
  induction l generalizing r with
  | nil => simp
  | cons o l ih =>
    obtain ⟨ho, hl⟩ := List.forall_mem_cons.1 hc
    simp only [List.foldl_cons, ih hl, objwin_addSlot ho, List.mem_cons, exists_eq_or_imp, or_assoc]

/-- The object-window flag is set iff an opaque texel of object-window mode covers the point (R166). -/
theorem objwin_sampleObject (s : State) (x y : Nat) : (sampleObject s x y).objwin = true ↔
    ∃ o idx, OpaqueAt s x y o idx ∧ (Tab.get s.host.oam o).gfxMode = 2 := by
  rw [sampleObject_eq_foldl, objwin_foldl_addSlot fun o => mem_candidates.1, noSprite, or_iff_right Bool.false_ne_true]
  exact ⟨fun ⟨o, _, idx, h⟩ => ⟨o, idx, h⟩, fun ⟨o, idx, h⟩ => ⟨o, mem_candidates.2 h.1.1, idx, h⟩⟩

/-! ### The winner (R167) -/

/-- Among the slots of a list `o` is a drawable match, with index `idx`, that beats every drawable match. -/
structure Wins (s : State) (x y : Nat) (l : List SlotNo) (o : SlotNo) (idx : Nat) : Prop where
  mem : o ∈ l
  drawable : DrawableAt s x y o idx
  beats : ∀ o' ∈ l, ∀ idx', DrawableAt s x y o' idx' → Beats s o o'

/-- What a result says of the slots scanned so far: it holds the winner, or nothing is found and there is no match. -/
inductive Leads (s : State) (x y : Nat) (l : List SlotNo) (r : ORes) : Prop
  | empty (notFound : r.found = false) (noMatch : ∀ o ∈ l, ∀ idx, ¬DrawableAt s x y o idx)
  | winner (o : SlotNo) (idx : Nat) (wins : Wins s x y l o idx) (holds : r = wonBy s o idx r)

theorem Beats.refl (s : State) (o : SlotNo) : Beats s o o := .inr ⟨rfl, BitVec.le_refl o⟩

theorem Beats.trans {s : State} {a b c : SlotNo} (hab : Beats s a b) (hbc : Beats s b c) : Beats s a c := by
  rw [Beats] at *
  bv_omega

theorem Beats.antisymm {s : State} {a b : SlotNo} (hab : Beats s a b) (hba : Beats s b a) : a = b := by
  rw [Beats] at *
  bv_omega

/-- The winner stays the winner when a slot is added that it beats, should that be a match. -/
theorem Wins.append {s : State} {x y : Nat} {l : List SlotNo} {o o' : SlotNo} {idx : Nat} (h : Wins s x y l o idx)
    (hbeats : ∀ idx', DrawableAt s x y o' idx' → Beats s o o') : Wins s x y (l ++ [o']) o idx where
  mem := List.mem_append_left _ h.mem
  drawable := h.drawable
  beats := List.forall_mem_append.2 ⟨h.beats, by simpa using hbeats⟩

/-- A match that beats every match before it is the winner. -/
theorem Wins.last {s : State} {x y : Nat} {l : List SlotNo} {o : SlotNo} {idx : Nat} (h : DrawableAt s x y o idx)
    (hbeats : ∀ o' ∈ l, ∀ idx', DrawableAt s x y o' idx' → Beats s o o') : Wins s x y (l ++ [o]) o idx where
  mem := List.mem_append_right _ (List.mem_singleton_self o)
  drawable := h
  beats := List.forall_mem_append.2 ⟨hbeats, by simpa using fun _ _ => Beats.refl s o⟩

/-- The next slot in ascending order takes the place of a winner of greater priority, and of no other. -/
theorem Leads.addSlot {s : State} {x y : Nat} {l : List SlotNo} {r : ORes} {o : SlotNo} (h : Leads s x y l r)
    (hc : Covers s x y o) (hlast : ∀ o' ∈ l, o'.toNat < o.toNat) : Leads s x y (l ++ [o]) (addSlot s x y r o) := by
  rcases addSlot_cases hc r with ⟨hno, b, e⟩ | ⟨idx, hdraw, e⟩ <;> rw [e]
  · cases h with
    | empty hnot hl => exact .empty hnot (List.forall_mem_append.2 ⟨hl, by simpa using hno⟩)
    | winner w i hw hr =>
      exact .winner w i (hw.append fun idx' h' => absurd h' (hno idx')) (congrArg (fun r => { r with objwin := b }) hr)
  · cases h with
    | empty hnot hl =>
      rw [if_pos (.inl hnot)]
      exact .winner o idx (.last hdraw fun o' ho' idx' h' => absurd h' (hl o' ho' idx')) rfl
    | winner w i hw hr =>
      have hfound : r.found = true := by rw [hr]; rfl
      have hprio : r.prio = (Tab.get s.host.oam w).priority := by rw [hr]; rfl
      by_cases hless : (Tab.get s.host.oam o).priority < (Tab.get s.host.oam w).priority
      · rw [if_pos (.inr (hprio ▸ hless))]
        exact .winner o idx (.last hdraw fun o' ho' idx' h' => .trans (.inl hless) (hw.beats o' ho' idx' h')) rfl
      · rw [if_neg (by simp [hfound, hprio, hless])]
        have hslot := hlast w hw.mem
        exact .winner w i (hw.append fun _ _ => by rw [Beats]; bv_omega) hr

theorem leads_foldl_addSlot {s : State} {x y : Nat} {l : List SlotNo} (hc : ∀ o ∈ l, Covers s x y o)
    (hsorted : l.Pairwise fun a b => a.toNat < b.toNat) : Leads s x y l (l.foldl (addSlot s x y) noSprite) := by
  induction l using List.reverseRecOn with
  | nil => exact .empty rfl (by simp)
  | append_singleton l o ih =>
    obtain ⟨hcl, hco⟩ := List.forall_mem_append.1 hc
    obtain ⟨hl, -, hlast⟩ := List.pairwise_append.1 hsorted
    have ho := List.mem_singleton_self o
    rw [List.foldl_append]
    exact (ih hcl hl).addSlot (hco o ho) fun o' ho' => hlast o' ho' o ho

/-- Something is found iff there is a match. -/
theorem Leads.found_iff {s : State} {x y : Nat} {l : List SlotNo} {r : ORes} (h : Leads s x y l r) :
    r.found = true ↔ ∃ o ∈ l, ∃ idx, DrawableAt s x y o idx := by
  cases h with
  | empty hnot hl =>
    refine iff_of_false (by simp [hnot]) ?_
    rintro ⟨o, ho, idx, hdraw⟩
    exact hl o ho idx hdraw
  | winner o idx hw hr => exact iff_of_true (by rw [hr]; rfl) ⟨o, hw.mem, idx, hw.drawable⟩

/-- The match that beats every match is the one the result holds. -/
theorem Leads.eq_wonBy {s : State} {x y : Nat} {l : List SlotNo} {r : ORes} {o : SlotNo} {idx : Nat}
    (h : Leads s x y l r) (hw : Wins s x y l o idx) : r = wonBy s o idx r := by
  cases h with
  | empty hnot hl => exact absurd hw.drawable (hl o hw.mem idx)
  | winner o' idx' hw' hr =>
    obtain rfl : o = o' :=
      (hw.beats o' hw'.mem idx' hw'.drawable).antisymm (hw'.beats o hw.mem idx hw.drawable)
    rwa [hw.drawable.1.unique hw'.drawable.1]

theorem leads_sampleObject (s : State) (x y : Nat) : Leads s x y (candidates s x y) (sampleObject s x y) := by
  rw [sampleObject_eq_foldl]
  exact leads_foldl_addSlot (fun o => mem_candidates.1) (candidates_sorted s x y)

/-- Settles O32: the loop goes through the covering slots in ascending order, sets the object-window flag at an opaque
texel of that mode, and keeps the winner of the slots it has passed. -/
theorem smpObjWinner : Obligations.SmpObjWinner := by
  unfold Obligations.SmpObjWinner
  intro x y s
  have hleads := leads_sampleObject s x.toNat y.toNat
  have hmem {o : SlotNo} {idx : Nat} (h : DrawableAt s x.toNat y.toNat o idx) : o ∈ candidates s x.toNat y.toNat :=
    mem_candidates.2 h.1.1
  refine ⟨smpObj x y s, exec_eq_next .., rfl, objwin_sampleObject .., ?_,
    emptyUnlessFound_sampleObject s x.toNat y.toNat, fun o idx hdraw hbeats => ?_⟩
  · rw [smpObj_ores, hleads.found_iff]
    exact ⟨fun ⟨o, _, idx, h⟩ => ⟨o, idx, h⟩, fun ⟨o, idx, h⟩ => ⟨o, hmem h, idx, h⟩⟩
  · rw [smpObj_ores, hleads.eq_wonBy ⟨hmem hdraw, hdraw, fun o' _ => hbeats o'⟩]
    exact ⟨rfl, beq_iff_eq, rfl⟩

/-! ### What the sampler reads (R161) -/

/-- The bytes of its region are all that a texel read reads (R88). -/
theorem texelIndex_congr {m m' : Memory 8} {r : Region}
    (h : ∀ a, r.lo ≤ a → a < r.hi → Memory.read m a = Memory.read m' a) (base : Nat) (bpp8 : Bool) (px py : Nat) :
    texelIndex m base bpp8 px py r = texelIndex m' base bpp8 px py r := by
  have hread (a : Nat) : readIn m r a = readIn m' r a := by
    rw [readIn, readIn]
    split
    · rfl
    · next hin =>
      obtain ⟨hlo, hhi⟩ := not_or.1 hin
      rw [h a (Nat.not_lt.1 hlo) (Nat.not_le.1 hhi)]
  rw [texelIndex, texelIndex, hread, hread]

/-- Two host memories that hold the same of what the sampler reads besides the candidates' descriptors. -/
structure SameForObj (h h' : HostMem) : Prop where
  objAff : h.objAff = h'.objAff
  granH : h.reg.mosaic.objH = h'.reg.mosaic.objH
  granV : h.reg.mosaic.objV = h'.reg.mosaic.objV
  obj1d : h.reg.dispcnt.obj1d = h'.reg.dispcnt.obj1d
  mode : h.reg.dispcnt.mode = h'.reg.dispcnt.mode
  vram : ∀ a, 0x10000 ≤ a → a < 0x18000 → Memory.read h.vram a = Memory.read h'.vram a
  pal : ∀ a, 0x200 ≤ a → a < 0x400 → Memory.read h.pal a = Memory.read h'.pal a

/-- A candidate's texel is a byte at 8-bit depth and a nibble at 4-bit depth. -/
theorem objOpaque_lt {h : HostMem} {a : ObjAttr} {c : ObjCache} {x y idx : Nat} (hop : objOpaque h a c x y = some idx) :
    idx < if a.color8 then 256 else 16 := by
  obtain ⟨p, -, htexel⟩ := Option.bind_eq_some_iff.1 (objOpaque_eq_some.1 hop).1
  simp only [objTexel] at htexel
  split at htexel
  · cases htexel
  · split at htexel
    · cases htexel
    · exact texelIndex_lt htexel

section
variable {h h' : HostMem} (hsame : SameForObj h h')
include hsame

theorem objOpaque_congr (a : ObjAttr) (c : ObjCache) (x y : Nat) : objOpaque h a c x y = objOpaque h' a c x y := by
  have htexel (tx ty : Nat) : objTexel h a c tx ty = objTexel h' a c tx ty := by
    rw [objTexel, objTexel, hsame.mode, hsame.obj1d]
    simp only [texelIndex_congr (r := objRegion) hsame.vram]
  rw [objOpaque, objOpaque, objIndex, objIndex, hsame.objAff, hsame.granH, hsame.granV]
  simp only [htexel]

/-- The entries of the objects' palette lie from 0x200 up to 0x400 (R71, R89). -/
theorem palColor_obj_congr {i : Nat} (hi : i < 256) : palColor h.pal 1 i = palColor h'.pal 1 i := by
  rw [palColor, palColor, Memory.readHalf, Memory.readHalf, hsame.pal _ (by omega) (by omega),
    hsame.pal _ (by omega) (by omega)]

theorem indexColor_obj_congr {bpp8 : Bool} (pal4 : BitVec 4) {idx : Nat} (hidx : idx < if bpp8 then 256 else 16) :
    indexColor h.pal 1 bpp8 pal4.toNat idx = indexColor h'.pal 1 bpp8 pal4.toNat idx := by
  have hpal4 := pal4.isLt
  cases bpp8 with
  | true => exact palColor_obj_congr hsame hidx
  | false =>
    rw [if_neg Bool.false_ne_true] at hidx
    exact palColor_obj_congr hsame (by omega)

theorem candidate_congr (a : ObjAttr) (c : ObjCache) (x y : Nat) (r : ORes) :
    candidate h a c x y r = candidate h' a c x y r := by
  rw [candidate, candidate, ← objOpaque_congr hsame]
  cases hop : objOpaque h a c x y with
  | none => rfl
  | some idx => simp only [indexColor_obj_congr hsame a.palette (objOpaque_lt hop)]

end

/-- Position, shape, size and double-size of the descriptor, and rectangle size and clipped bounds of the cache, do not
enter. -/
theorem candidate_unread (h : HostMem) (a : ObjAttr) (c : ObjCache) (x y : Nat) (r : ORes) (yy : BitVec 8)
    (xx : BitVec 9) (ds : Bool) (sh sz : BitVec 2) (rectW rectH x0 x1 y0 y1 : Nat) :
    candidate h { a with y := yy, x := xx, doubleSize := ds, shape := sh, size := sz }
      { c with rectW := rectW, rectH := rectH, clipX0 := x0, clipX1 := x1, clipY0 := y0, clipY1 := y1 } x y r =
    candidate h a c x y r := rfl

theorem visibleAt_congr {s s' : State} {x y : Nat} (hcol : ∀ hx : x < 240, s.colset[x] = s'.colset[x])
    (hrow : ∀ hy : y < 160, s.rowset[y] = s'.rowset[y]) : visibleAt s x y = visibleAt s' x y := by
  rw [visibleAt, visibleAt]
  split
  · rfl
  · next hon =>
    rw [cfg_screenW, cfg_screenH] at hon
    obtain ⟨hx, hy⟩ : x < 240 ∧ y < 160 := by omega
    rw [Tab.at_of_lt _ _ _ hx, Tab.at_of_lt _ _ _ hx, Tab.at_of_lt _ _ _ hy, Tab.at_of_lt _ _ _ hy, hcol hx, hrow hy]

/-- Settles O34: the same slots are candidates, and each adds the same to the result. -/
theorem smpObjReadsOnlyItsInputs : Obligations.SmpObjReadsOnlyItsInputs := by
  unfold Obligations.SmpObjReadsOnlyItsInputs
  intro x y s s' hcol hrow haff hgranH hgranV hobj1d hmode hvram hpal hslots
  have hsame : SameForObj s.host s'.host := ⟨haff, hgranH, hgranV, hobj1d, hmode, hvram, hpal⟩
  have hcandidates : candidates s x.toNat y.toNat = candidates s' x.toNat y.toNat :=
    congrArg members (visibleAt_congr hcol hrow)
  refine ⟨_, _, exec_eq_next .., exec_eq_next .., ?_⟩
  rw [execNext, execNext, smpObj_ores, smpObj_ores, sampleObject_eq_foldl, sampleObject_eq_foldl, ← hcandidates]
  refine List.foldl_ext _ _ _ fun r o ho => ?_
  obtain ⟨⟨rectW, rectH, x0, x1, y0, y1, hobjc⟩, yy, xx, ds, sh, sz, hoam⟩ := hslots o (mem_candidates.1 ho)
  rw [addSlot, addSlot, hobjc, hoam, candidate_unread]
  exact candidate_congr hsame ..

end Sys2Proof.Machine
end

section
/-! PROOFS. The background samplers (R180 to R198): the map coordinates and addresses with the masks and shifts of the
pseudocode, the colour of a texel, and the sample that `BRES` takes. -/

namespace Sys2Proof.Machine

/-! ### What a sampler writes (R198) -/

theorem setBres_frame (v : Option Colour) (s : State) : setBres v s = { s with bres := (setBres v s).bres } := by
  cases v <;> rfl

/-- A sample that is there under a condition is valid under it, and a sample that is not there has colour 0. -/
theorem setBres_bres_of_ite {v : Option Colour} {p : Prop} [Decidable p] {c : Colour}
    (hv : v = if p then some c else none) (s : State) :
    ((setBres v s).bres.valid = true ↔ p) ∧ ((setBres v s).bres.valid = false → (setBres v s).bres.color = 0) ∧
      ((setBres v s).bres.valid = true → (setBres v s).bres.color = c) := by
  by_cases hp : p
  · rw [hv, if_pos hp]
    exact ⟨iff_of_true rfl hp, fun h => Bool.noConfusion h, fun _ => rfl⟩
  · rw [hv, if_neg hp]
    exact ⟨iff_of_false Bool.false_ne_true hp, fun _ => rfl, fun h => Bool.noConfusion h⟩

/-! ### Texels (R88, R90) -/

/-- A colour index that is there under a condition gives a background colour under it, if it is not 0. -/
theorem texelColor_ite (pal : Memory 8) (c8 : Bool) (pal4 k : Nat) (p : Prop) [Decidable p] :
    texelColor pal 0 c8 pal4 (if p then some k else none) =
      if p ∧ k ≠ 0 then some (palColor pal 0 (if c8 then k else 16 * pal4 + k)) else none := by
  by_cases hp : p
  · rw [if_pos hp, if_congr (and_iff_right hp) rfl rfl, ite_not, apply_ite (palColor pal 0)]
    rfl
  · rw [if_neg hp, if_neg (hp ∘ And.left)]
    rfl

/-- The colour of a background texel by the address of its byte and, at 4-bit depth, its nibble. -/
theorem texelColor_texelIndex (h : HostMem) (c8 : Bool) (pal4 base px py : Nat) :
    texelColor h.pal 0 c8 pal4 (texelIndex h.vram base c8 px py bgRegion) =
      let addr := if c8 then base + py * 8 + px else base + py * 4 + (px >>> 1)
      let b := (Memory.read h.vram addr).toNat
      let k := if c8 then b else if px &&& 1 = 1 then b / 16 else b % 16
      if addr < 0x10000 ∧ k ≠ 0 then some (palColor h.pal 0 (if c8 then k else 16 * pal4 + k)) else none := by
  have hregion (a : Nat) : (a < bgRegion.lo ∨ bgRegion.hi ≤ a) ↔ ¬a < 0x10000 := by
    simp [bgRegion]
  simp only [texelIndex_eq, hregion, ite_not, Nat.and_one_is_mod, Nat.shiftRight_one, texelColor_ite]

/-- A map entry past the background region gives no sample (R183, R190). -/
theorem ite_bgVramSize_le (ea : Nat) (v : Option Colour) :
    (if cfg.bgVramSize ≤ ea then none else v) = if ea < 0x10000 then v else none := by
  rw [← ite_not]
  exact if_congr Nat.not_le rfl rfl

/-! ### Tile backgrounds (R180 to R184) -/

/-- A map's sides are powers of two (R114). -/
theorem tileBgDim_eq_pow (size : BitVec 2) :
    tileBgDim size = (2 ^ (8 + size.toNat % 2), 2 ^ (8 + size.toNat / 2)) := by
  revert size; decide

/-- Snapping an unsigned coordinate is a subtraction of naturals. -/
theorem toNat_mosaicSnap (v : Nat) (g : BitVec 4) : (mosaicSnap cfg v g).toNat = v - v % (g.toNat + 1) := by
  rw [mosaicSnap_cfg, ← Int.toNat_sub]
  norm_cast

/-- Scroll, mask, then snap (R181). -/
theorem tileMapCoord_eq (reg : Reg) (n : BitVec 2) (x y : Nat) : tileMapCoord reg n x y =
    let c := Tab.get reg.bgcnt n
    let snap (v : Nat) (g : BitVec 4) : Nat := if c.mosaic then v - v % (g.toNat + 1) else v
    (snap ((x + (Tab.get reg.bgHofs n).toNat) &&& ((tileBgDim c.size).1 - 1)) reg.mosaic.bgH,
      snap ((y + (Tab.get reg.bgVofs n).toNat) &&& ((tileBgDim c.size).2 - 1)) reg.mosaic.bgV) := by
  simp only [tileMapCoord, tileBgDim_eq_pow, Nat.and_two_pow_sub_one_eq_mod, mosaicPair]
  split
  · simp only [toNat_mosaicSnap]
  · rfl

theorem tileEntryAddr_eq (c : BgCnt) (mx my : Nat) : tileEntryAddr c mx my =
    c.screenBase.toNat * 0x800 + tileBgBlock c.size (mx >>> 8) (my >>> 8) * 0x800 +
      (((my &&& 255) >>> 3) * 32 + ((mx &&& 255) >>> 3)) * 2 := by
  have hmask (v : Nat) : v &&& 255 = v % 256 := Nat.and_two_pow_sub_one_eq_mod v 8
  simp only [tileEntryAddr, hmask, Nat.shiftRight_eq_div_pow, Nat.reducePow]

/-- The colour that the fields of a map entry, its flips and its tile give (R112, R184). -/
theorem tileTexel_eq (h : HostMem) (c : BgCnt) (e : Half) (mx my : Nat) : tileTexel h c e mx my =
    let px := if e.getLsbD 10 then 7 - (mx &&& 7) else mx &&& 7
    let py := if e.getLsbD 11 then 7 - (my &&& 7) else my &&& 7
    let base := c.charBase.toNat * 0x4000 + (e.toNat % 1024) * (if c.color8 then 64 else 32)
    let addr := if c.color8 then base + py * 8 + px else base + py * 4 + (px >>> 1)
    let b := (Memory.read h.vram addr).toNat
    let k := if c.color8 then b else if px &&& 1 = 1 then b / 16 else b % 16
    if addr < 0x10000 ∧ k ≠ 0 then some (palColor h.pal 0 (if c.color8 then k else 16 * (e.toNat / 4096) + k))
    else none := by
  have hmask (v : Nat) : v &&& 7 = v % 8 := Nat.and_two_pow_sub_one_eq_mod v 3
  have htile : (e.extractLsb' 0 10).toNat = e.toNat % 1024 := by
    rw [BitVec.extractLsb'_toNat, Nat.shiftRight_zero]
  have hpalette : (e.extractLsb' 12 4).toNat = e.toNat / 4096 := by
    have he := e.isLt
    rw [BitVec.extractLsb'_toNat, Nat.shiftRight_eq_div_pow]
    omega
  rw [tileTexel, htile, hpalette, hmask, hmask]
  exact texelColor_texelIndex ..

/-- Settles O38: the coordinates, the entry's address and the texel are those of the pseudocode, and the sample is there
if both addresses are in the region and the index is not 0. -/
theorem smpTileResult : Obligations.SmpTileResult := by
  unfold Obligations.SmpTileResult
  intro n x y s c W H snap mx my ea e px py base addr b k
  have hcoord : tileMapCoord s.host.reg n x.toNat y.toNat = (mx, my) := tileMapCoord_eq ..
  have hea : tileEntryAddr c mx my = ea := tileEntryAddr_eq ..
  have hsample : sampleTile s.host n x.toNat y.toNat =
      if ea < 0x10000 ∧ addr < 0x10000 ∧ k ≠ 0 then
        some (palColor s.host.pal 0 (if c.color8 then k else 16 * (e.toNat / 4096) + k))
      else none := by
    rw [sampleTile, hcoord, hea, ite_and, ite_bgVramSize_le]
    exact if_congr Iff.rfl (tileTexel_eq ..) rfl
  exact ⟨smpTile n x y s, exec_eq_next .., setBres_frame .., hea ▸ tileEntryAddr_even c mx my,
    setBres_bres_of_ite hsample s⟩

/-! ### Affine backgrounds (R188 to R190) -/

/-- A map's side is a power of two (R114). -/
theorem affBgDim_eq_pow (size : BitVec 2) : affBgDim size = 2 ^ (7 + size.toNat) := by
  revert size; decide

/-- Masking the two's complement of a coordinate takes its floor remainder. -/
theorem toNat_ofInt_and_mask (v : Int) {k : Nat} (hk : k ≤ 32) :
    (BitVec.ofInt 32 v &&& BitVec.ofNat 32 (2 ^ k - 1)).toNat = (v % (2 ^ k : Nat)).toNat := by
  have hdvd : (2 ^ k : Nat) ∣ 2 ^ 32 := Nat.pow_dvd_pow 2 hk
  have hmask : 2 ^ k - 1 < 2 ^ 32 := Nat.sub_one_lt_of_le (Nat.two_pow_pos k) (Nat.le_of_dvd (by decide) hdvd)
  have hpow : (0 : Int) ≤ (2 ^ k : Nat) := Int.natCast_nonneg _
  rw [BitVec.toNat_and, BitVec.toNat_ofInt, BitVec.toNat_ofNat, Nat.mod_eq_of_lt hmask, Nat.and_two_pow_sub_one_eq_mod]
  calc (v % (2 ^ 32 : Nat)).toNat % 2 ^ k
      = (v % (2 ^ 32 : Nat) % (2 ^ k : Nat)).toNat :=
        (Int.toNat_emod (Int.emod_nonneg v (by decide)) hpow).symm
    _ = (v % (2 ^ k : Nat)).toNat := by rw [Int.emod_emod_of_dvd v (Int.natCast_dvd_natCast.2 hdvd)]

/-- Wrapping is the mask of a map's side less one (R189). -/
theorem toNat_ofInt_and_affBgDim (v : Int) (size : BitVec 2) :
    (BitVec.ofInt 32 v &&& BitVec.ofNat 32 (affBgDim size - 1)).toNat = (v % affBgDim size).toNat := by
  have hsize := size.isLt
  rw [affBgDim_eq_pow]
  exact toNat_ofInt_and_mask v (by omega)

/-- The integer part of an accumulator with the shift of R188. -/
theorem floorShift_frac (v : Int) : floorShift v cfg.frac = v >>> (8 : Nat) := (Int.shiftRight_eq_div_pow v 8).symm

/-- Each coordinate of the pair is snapped on its own (R189). -/
theorem mosaicPair_eq (on : Bool) (gh gv : BitVec 4) (p : Int × Int) : mosaicPair on gh gv p =
    let snap (v : Int) (g : BitVec 4) : Int := if on then v - v % (g.toNat + 1) else v
    (snap p.1 gh, snap p.2 gv) := by
  cases on <;> rfl

/-- Snapped coordinates are wrapped by the mask or rejected outside the map (R189). -/
theorem affineMapCoord_of_snapped {reg : Reg} {n : BitVec 2} {fx fy ix iy : Int}
    (hsnap : mosaicPair (Tab.get reg.bgcnt n).mosaic reg.mosaic.bgH reg.mosaic.bgV
      (floorShift fx cfg.frac, floorShift fy cfg.frac) = (ix, iy)) :
    affineMapCoord reg n fx fy =
      let c := Tab.get reg.bgcnt n
      let D := affBgDim c.size
      let wrapped (v : Int) : Nat := if c.wrap then (BitVec.ofInt 32 v &&& BitVec.ofNat 32 (D - 1)).toNat else v.toNat
      if c.wrap = true ∨ (0 ≤ ix ∧ ix < D ∧ 0 ≤ iy ∧ iy < D) then some (wrapped ix, wrapped iy) else none := by
  simp only [affineMapCoord, hsnap, toNat_ofInt_and_affBgDim]
  cases (Tab.get reg.bgcnt n).wrap with
  | true => simp only [true_or, if_true]
  | false =>
    simp only [Bool.false_eq_true, false_or, if_false]
    rw [← ite_not]
    exact if_congr (by omega) rfl rfl

theorem affineEntryAddr_eq (c : BgCnt) (jx jy : Nat) : affineEntryAddr c jx jy =
    c.screenBase.toNat * 0x800 + (jy >>> 3) * (affBgDim c.size >>> 3) + (jx >>> 3) := by
  simp only [affineEntryAddr, Nat.shiftRight_eq_div_pow, Nat.reducePow]

/-- Settles O39: the coordinate is wrapped or rejected as the pseudocode says, and the sample is there if the map has it,
both addresses are in the region and the index is not 0. -/
theorem smpAffResult : Obligations.SmpAffResult := by
  unfold Obligations.SmpAffResult
  intro k s c D snap ix iy wrapped jx jy inside ea texel idx
  have hcoord : affineMapCoord s.host.reg (affineBg k) (Tab.get s.acc k).x.toInt (Tab.get s.acc k).y.toInt =
      if inside then some (jx, jy) else none := by
    rw [affineBg_eq]
    refine affineMapCoord_of_snapped ?_
    rw [floorShift_frac, floorShift_frac]
    exact mosaicPair_eq ..
  have hea : affineEntryAddr c jx jy = ea := affineEntryAddr_eq ..
  have htexel : texelColor s.host.pal 0 true 0 (texelIndex s.host.vram
      (c.charBase.toNat * 0x4000 + (Memory.read s.host.vram ea).toNat * 64) true (jx % 8) (jy % 8) bgRegion) =
      if texel < 0x10000 ∧ idx ≠ 0 then some (palColor s.host.pal 0 idx) else none := by
    have hmask (v : Nat) : v % 8 = v &&& 7 := (Nat.and_two_pow_sub_one_eq_mod v 3).symm
    rw [hmask, hmask]
    exact texelColor_texelIndex ..
  have hsample : sampleAffine s.host (affineBg k) (Tab.get s.acc k).x.toInt (Tab.get s.acc k).y.toInt =
      if inside ∧ ea < 0x10000 ∧ texel < 0x10000 ∧ idx ≠ 0 then some (palColor s.host.pal 0 idx) else none := by
    by_cases hin : inside
    · rw [sampleAffine, hcoord, if_pos hin, Option.bind_some, affineBg_eq, if_congr (and_iff_right hin) rfl rfl, ite_and,
        ← htexel, ← hea, ite_bgVramSize_le]
    · rw [sampleAffine, hcoord, if_neg hin, if_neg (hin ∘ And.left), Option.bind_none]
  exact ⟨smpAff k s, exec_eq_next .., setBres_frame .., setBres_bres_of_ite hsample s⟩

/-! ### Bitmap backgrounds (R195 to R197) -/

/-- A direct colour is the low 15 bits of its two bytes (R72, R195). -/
theorem toNat_directColor (m : Memory 8) (a : Nat) : ((Memory.readHalf m a).extractLsb' 0 15).toNat =
    ((Memory.read m a).toNat + 256 * (Memory.read m (a + 1)).toNat) % 2 ^ 15 := by
  rw [BitVec.extractLsb'_toNat, Nat.shiftRight_zero, Memory.readHalf_toNat]

/-- A pixel is in a frame if it is past neither edge. -/
theorem ite_past_edge {α : Type} (x y w h : Nat) (a b : α) :
    (if w ≤ x ∨ h ≤ y then a else b) = if x < w ∧ y < h then b else a := by
  rw [← ite_not]
  exact if_congr (by omega) rfl rfl

theorem sampleBitmap3_eq (h : HostMem) (x y : Nat) : sampleBitmap3 h x y =
    if x < 240 ∧ y < 160 then some ((Memory.readHalf h.vram ((y * 240 + x) * 2)).extractLsb' 0 15) else none :=
  ite_past_edge ..

theorem sampleBitmap4_eq (h : HostMem) (x y : Nat) : sampleBitmap4 h x y =
    let k := (Memory.read h.vram (pageBase h + y * 240 + x)).toNat
    if x < 240 ∧ y < 160 ∧ k ≠ 0 then some (palColor h.pal 0 k) else none := by
  extract_lets k
  have hindex : sampleBitmap4 h x y = texelColor h.pal 0 true 0 (if x < 240 ∧ y < 160 then some k else none) := by
    rw [apply_ite (texelColor h.pal 0 true 0)]
    exact ite_past_edge ..
  rw [hindex, texelColor_ite, if_congr and_assoc rfl rfl]
  rfl

theorem sampleBitmap5_eq (h : HostMem) (x y : Nat) : sampleBitmap5 h x y =
    if x < 160 ∧ y < 128 then some ((Memory.readHalf h.vram (pageBase h + (y * 160 + x) * 2)).extractLsb' 0 15)
    else none :=
  ite_past_edge ..

/-- Settles O40: each sample is there inside the frame, in mode 4 if its index is not 0. -/
theorem smpBitmapResults : Obligations.SmpBitmapResults := by
  unfold Obligations.SmpBitmapResults
  intro x y s b page
  obtain ⟨hvalid3, hnone3, hcolor3⟩ := setBres_bres_of_ite (sampleBitmap3_eq s.host x.toNat y.toNat) s
  obtain ⟨hvalid5, hnone5, hcolor5⟩ := setBres_bres_of_ite (sampleBitmap5_eq s.host x.toNat y.toNat) s
  exact ⟨⟨smpBmp3 x y s, exec_eq_next .., setBres_frame .., hvalid3, hnone3,
      fun h => (congrArg BitVec.toNat (hcolor3 h)).trans (toNat_directColor ..)⟩,
    ⟨smpBmp4 x y s, exec_eq_next .., setBres_frame .., setBres_bres_of_ite (sampleBitmap4_eq s.host x.toNat y.toNat) s⟩,
    ⟨smpBmp5 x y s, exec_eq_next .., setBres_frame .., hvalid5, hnone5,
      fun h => (congrArg BitVec.toNat (hcolor5 h)).trans (toNat_directColor ..)⟩⟩

end Sys2Proof.Machine
end

section
/-! PROOFS. The window evaluator: which window holds a point, and the mask each case gives (R210 to R213). -/

namespace Sys2Proof.Machine

/-- A window holds a point if it is enabled and both half-open ranges contain the point (R212). -/
theorem windowHolds_iff (reg : Reg) (w : BitVec 1) (x y : BitVec 8) : windowHolds reg w x.toNat y.toNat = true ↔
    bitOf reg.dispcnt.winEnable w = true ∧ (Tab.get reg.win w).left ≤ x ∧ x < (Tab.get reg.win w).right ∧
      (Tab.get reg.win w).top ≤ y ∧ y < (Tab.get reg.win w).bottom := by
  rw [windowHolds, Bool.and_eq_true, WindowRect.contains, decide_eq_true_iff]
  rfl

theorem eq_zero_iff_bitOf : ∀ v : BitVec 2, v = 0#2 ↔ ¬(bitOf v 0#1 = true ∨ bitOf v 1#1 = true) := by
  decide

/-- R213 applies when none of the three enable bits is set. -/
theorem windowsOff_iff (d : Dispcnt) : d.winEnable = 0#2 ∧ d.objwinEnable = false ↔
    ¬(bitOf d.winEnable 0#1 = true ∨ bitOf d.winEnable 1#1 = true ∨ d.objwinEnable = true) := by
  rw [eq_zero_iff_bitOf, ← Bool.not_eq_true, ← not_or, or_assoc]

/-- With `WINDOW_STUB` unset (R211) the windows are tried in order once one is enabled. -/
theorem windowEval_cfg (reg : Reg) (x y : Nat) (ow : Bool) : windowEval cfg reg x y ow =
    if bitOf reg.dispcnt.winEnable 0#1 = true ∨ bitOf reg.dispcnt.winEnable 1#1 = true ∨
        reg.dispcnt.objwinEnable = true then
      if windowHolds reg 0#1 x y then Tab.get reg.winin 0#1
      else if windowHolds reg 1#1 x y then Tab.get reg.winin 1#1
      else if reg.dispcnt.objwinEnable && ow then reg.winobj
      else reg.winout
    else allEnabled := by
  rw [← ite_not, ← if_congr (windowsOff_iff reg.dispcnt) rfl rfl]
  rfl

/-- Settles O42: each clause's premises choose one branch of the evaluator; a window that holds the point is enabled, so
R213 does not apply then. -/
theorem winEvalFirstMatch : Obligations.WinEvalFirstMatch := by
  unfold Obligations.WinEvalFirstMatch
  intro x y ow s r en inside inObj any
  have hholds {w : BitVec 1} (h : inside w) : windowHolds r w x.toNat y.toNat = true := (windowHolds_iff r w x y).2 h
  have hmisses {w : BitVec 1} (h : ¬inside w) : ¬windowHolds r w x.toNat y.toNat = true :=
    mt (windowHolds_iff r w x y).1 h
  refine ⟨winEval x y ow s, exec_eq_next .., rfl, ?off, ?win0, ?win1, ?objwin, ?outside, rfl⟩ <;>
    rw [winEval_wres, windowEval_cfg]
  case off => exact fun hoff => if_neg hoff
  case win0 =>
    intro h0
    have hany : any := .inl h0.1
    rw [if_pos hany, if_pos (hholds h0)]
  case win1 =>
    intro h0 h1
    have hany : any := .inr (.inl h1.1)
    rw [if_pos hany, if_neg (hmisses h0), if_pos (hholds h1)]
  case objwin =>
    intro h0 h1 hobj
    have hany : any := .inr (.inr hobj.1)
    rw [if_pos hany, if_neg (hmisses h0), if_neg (hmisses h1), if_pos (Bool.and_eq_true_iff.2 hobj)]
  case outside =>
    intro hany h0 h1 hobj
    rw [if_pos hany, if_neg (hmisses h0), if_neg (hmisses h1), if_neg (mt Bool.and_eq_true_iff.1 hobj)]

end Sys2Proof.Machine
end

section
/-! PROOFS. The commands of the blend unit where they are legal (R220 to R229): what each does to the slots. -/

namespace Sys2Proof.Machine

/-! ### The command of a background -/

/-- The command that adds background `n`. -/
def bgCommand (n : BitVec 2) (color : Colour) (prio : BitVec 3) : Instr :=
  match n.toNat with
  | 0 => .bldBg0 color prio
  | 1 => .bldBg1 color prio
  | 2 => .bldBg2 color prio
  | _ => .bldBg3 color prio

theorem addCommand_eq_bgCommand (n : BitVec 2) (c : Sample) :
    addCommand n c = bgCommand n c.color (c.prio.setWidth 3) := rfl

/-- Two bits have four values: the cases of a background's number, and of the blend mode. -/
theorem forall_twoBits {p : BitVec 2 → Prop} (h0 : p 0) (h1 : p 1) (h2 : p 2) (h3 : p 3) (n : BitVec 2) : p n := by
  have hn : ∀ m : BitVec 2, m = 0 ∨ m = 1 ∨ m = 2 ∨ m = 3 := by decide
  obtain rfl | rfl | rfl | rfl := hn n
  · exact h0
  · exact h1
  · exact h2
  · exact h3

theorem execNext_bgCommand (n : BitVec 2) (color : Colour) (prio : BitVec 3) (s : State) :
    execNext (bgCommand n color prio) s = addBackground (bgCommand n color prio) n color prio s := by
  induction n using forall_twoBits <;> rfl

/-- The states that R225 to R228 name are those of the layers before background `n`. -/
theorem legalIn_bgCommand (st : BuState) (n : BitVec 2) (color : Colour) (prio : BitVec 3) :
    LegalIn st (bgCommand n color prio) ↔ BuState.rank st < 2 + n.toNat := by
  induction n using forall_twoBits <;> cases st <;> simp [bgCommand, LegalIn, BuState.rank]

/-- The states from which `BLD_BACKDROP` is legal (R229). -/
theorem rank_le_five {st : BuState} (hadded : st ≠ .backdropAdded) (hdone : st ≠ .composited) :
    BuState.rank st ≤ 5 := by
  cases st <;> simp_all [BuState.rank]

/-! ### What a legal command does -/

theorem bldObj_of_reset {s : State} (h : s.bu.state = .reset) (color : Colour) {prio : BitVec 3} (hp : prio.toNat ≤ 3)
    (semi : Bool) : bldObj color prio semi s =
      { s with bu := { s.bu with state := .objectAdded, slot0 := layerOf s.host.reg.bldcnt 4 color prio semi } } := by
  rw [bldObj, (priorityFault_eq_zero prio).2 hp, (orderFault_eq_zero _).2 (by rw [h]; rfl), BitVec.or_zero,
    guarded_zero]

theorem execNext_bgCommand_of_legal {s : State} {n : BitVec 2} (hr : BuState.rank s.bu.state < 2 + n.toNat)
    (color : Colour) {prio : BitVec 3} (hp : prio.toNat ≤ 3) : execNext (bgCommand n color prio) s = { s with
      bu := { offer (layerOf s.host.reg.bldcnt (n.setWidth 3) color prio false) s.bu with state := bgAdded n } } := by
  rw [execNext_bgCommand, addBackground, (priorityFault_eq_zero prio).2 hp,
    (orderFault_eq_zero _).2 (decide_eq_true hr), BitVec.or_zero, guarded_zero]

theorem bldBackdrop_of_takesBackdrop {s : State} (h : TakesBackdrop s) (color : Colour) : bldBackdrop color s = { s with
    bu := { offerBackdrop (layerOf s.host.reg.bldcnt 5 color 4 false) s.bu with state := .backdropAdded } } := by
  have hrank : BuState.rank s.bu.state ≤ 5 := h
  rw [bldBackdrop, (orderFault_eq_zero _).2 (decide_eq_true hrank), guarded_zero]

theorem bldComposite_of_backdropAdded {s : State} (h : s.bu.state = .backdropAdded) (en : Bool) :
    bldComposite en s = { s with cres := (compositeColor cfg s.host.reg s.bu en).setWidth 16,
                                 bu := { s.bu with state := .composited } } := by
  rw [bldComposite, (orderFault_eq_zero _).2 (by rw [h]; rfl), guarded_zero]

/-! ### Where a layer goes (R224, R229) -/

/-- The layer of a background, with the target flags of its own number (R221). -/
theorem layerOf_background (b : BldCnt) (n : BitVec 2) (color : Colour) (prio : BitVec 3) :
    layerOf b (n.setWidth 3) color prio false =
      { color := color, prio := prio, tgtA := b.targetA.getLsbD n.toNat, tgtB := b.targetB.getLsbD n.toNat,
        blendedObj := false, layer := n.setWidth 3 } := by
  have hn : (n.setWidth 3).toNat = n.toNat := by rw [BitVec.toNat_setWidth]; omega
  rw [layerOf, bitOf, bitOf, hn]

section
variable {l : Layer} {bu : BlendUnit}

theorem offer_of_lt_slot0 (h : l.prio < bu.slot0.prio) : offer l bu = { bu with slot0 := l, slot1 := bu.slot0 } :=
  if_pos h

theorem offer_of_lt_slot1 (h0 : bu.slot0.prio ≤ l.prio) (h1 : l.prio < bu.slot1.prio) :
    offer l bu = { bu with slot1 := l } := by
  rw [offer, if_neg (BitVec.not_lt.2 h0), if_pos h1]

theorem offer_of_le (h0 : bu.slot0.prio ≤ l.prio) (h1 : bu.slot1.prio ≤ l.prio) : offer l bu = bu := by
  rw [offer, if_neg (BitVec.not_lt.2 h0), if_neg (BitVec.not_lt.2 h1)]

theorem offerBackdrop_of_unset (h : bu.slot0.prio = 7) : offerBackdrop l bu = { bu with slot0 := l } := if_pos h

theorem offerBackdrop_of_slot1_unset (h0 : bu.slot0.prio ≠ 7) (h1 : bu.slot1.prio = 7) :
    offerBackdrop l bu = { bu with slot1 := l } :=
  (if_neg h0).trans (if_pos h1)

theorem offerBackdrop_of_set (h0 : bu.slot0.prio ≠ 7) (h1 : bu.slot1.prio ≠ 7) : offerBackdrop l bu = bu :=
  (if_neg h0).trans (if_neg h1)

end

/-! ### The statements -/

/-- Settles O43, by the one legal way through `BLD_OBJ`; `BLD_RESET` tests nothing. -/
theorem bldResetAndObject : Obligations.BldResetAndObject := by
  unfold Obligations.BldResetAndObject
  refine fun s => ⟨⟨bldReset s, exec_eq_next .., rfl, rfl, rfl, rfl⟩, fun color prio semi hreset hp => ?_⟩
  refine ⟨_, exec_eq_next .., ?_⟩
  rw [execNext, bldObj_of_reset hreset color hp]
  exact ⟨rfl, rfl, rfl, rfl⟩

/-- Settles O44, by the three places a layer can be offered to. -/
theorem bldBackgroundTakesSlot : Obligations.BldBackgroundTakesSlot := by
  unfold Obligations.BldBackgroundTakesSlot
  intro color prio s n i after hcommand hp hlegal l
  obtain ⟨rfl, rfl⟩ : i = bgCommand n color prio ∧ after = bgAdded n := by
    rcases hcommand with ⟨rfl, h⟩ | ⟨rfl, h⟩ | ⟨rfl, h⟩ | ⟨rfl, h⟩ <;> exact h
  refine ⟨_, exec_eq_next .., ?_⟩
  rw [execNext_bgCommand_of_legal ((legalIn_bgCommand ..).1 hlegal) color hp, layerOf_background]
  refine ⟨rfl, rfl, fun h => ?_, fun h0 h1 => ?_, fun h0 h1 => ?_⟩
  · rw [offer_of_lt_slot0 h]
    exact ⟨rfl, rfl⟩
  · rw [offer_of_lt_slot1 h0 h1]
    exact ⟨rfl, rfl⟩
  · rw [offer_of_le h0 h1]
    exact ⟨rfl, rfl⟩

/-- Settles O45, by the two slots that may be unset. -/
theorem bldBackdropFillsUnsetSlot : Obligations.BldBackdropFillsUnsetSlot := by
  unfold Obligations.BldBackdropFillsUnsetSlot
  intro color s hadded hdone l
  refine ⟨_, exec_eq_next .., ?_⟩
  rw [execNext, bldBackdrop_of_takesBackdrop (rank_le_five hadded hdone)]
  refine ⟨rfl, rfl, fun h0 => ?_, fun h0 h1 => ?_, fun h0 h1 => ?_⟩
  · rw [offerBackdrop_of_unset h0]
    exact ⟨rfl, rfl⟩
  · rw [offerBackdrop_of_slot1_unset h0 h1]
    exact ⟨rfl, rfl⟩
  · rw [offerBackdrop_of_set h0 h1]
    exact ⟨rfl, rfl⟩

end Sys2Proof.Machine
end

section
/-! PROOFS. The colour that `BLD_COMPOSITE` computes (R230 to R232): which formula is selected, and its channels as
rounded rationals. -/

namespace Sys2Proof.Machine

/-! ### Channels -/

theorem channel_eq (c : Colour) (i : Nat) : channel c i = c.toNat / 2 ^ (5 * i) % 32 := by
  rw [channel, BitVec.extractLsb'_toNat, Nat.shiftRight_eq_div_pow]

/-- A colour is its three channels. -/
theorem colour_ext {c d : Colour} (h : ∀ i < 3, channel c i = channel d i) : c = d := by
  have h0 := h 0 (by decide)
  have h1 := h 1 (by decide)
  have h2 := h 2 (by decide)
  simp only [channel_eq] at h0 h1 h2
  refine BitVec.eq_of_toNat_eq ?_
  have hc := c.isLt
  have hd := d.isLt
  omega

theorem channel_perChannel {f : Nat → Nat} (hf : ∀ i < 3, f i < 32) {i : Nat} (hi : i < 3) :
    channel (perChannel f) i = f i := by
  obtain ⟨h0, h1, h2⟩ :=
    channel_packRgb (f 0) (f 1) (f 2) (hf 0 (by decide)) (hf 1 (by decide)) (hf 2 (by decide))
  obtain rfl | rfl | rfl : i = 0 ∨ i = 1 ∨ i = 2 := by omega
  · exact h0
  · exact h1
  · exact h2

theorem requantise_cfg (n : Nat) : requantise cfg n = (n + 8) / 16 := rfl

theorem channel_alpha (eva evb : Nat) (top bottom : Colour) {i : Nat} (hi : i < 3) :
    channel (alpha cfg eva evb top bottom) i =
      min 31 (requantise cfg (channel top i * eva + channel bottom i * evb)) :=
  channel_perChannel (fun _ _ => by omega) hi

/-- A weight up to 16 brightens no channel past 31. -/
theorem channel_brighten {evy : Nat} (h : evy ≤ 16) (top : Colour) {i : Nat} (hi : i < 3) :
    channel (brighten cfg evy top) i = channel top i + requantise cfg ((31 - channel top i) * evy) := by
  refine channel_perChannel (fun j _ => ?_) hi
  have hc := channel_lt top j
  have hle := Nat.mul_le_mul_left (31 - channel top j) h
  rw [requantise_cfg]
  omega

theorem channel_darken (evy : Nat) (top : Colour) {i : Nat} (hi : i < 3) :
    channel (darken cfg evy top) i = requantise cfg (channel top i * (16 - evy)) := by
  refine channel_perChannel (fun j _ => ?_) hi
  have hc := channel_lt top j
  have hle := Nat.mul_le_mul_left (channel top j) (Nat.sub_le 16 evy)
  rw [requantise_cfg]
  omega

/-! ### Rounding (R231, R232) -/

theorem roundsHalfUp_requantise (n : Nat) : RoundsHalfUp (requantise cfg n) ((n : ℚ) / 16) := by
  have hlo : 16 * requantise cfg n ≤ n + 8 := by rw [requantise_cfg]; omega
  have hhi : n + 8 < 16 * (requantise cfg n + 1) := by rw [requantise_cfg]; omega
  have hlo : (16 * requantise cfg n : ℚ) ≤ n + 8 := by exact_mod_cast hlo
  have hhi : (n + 8 : ℚ) < 16 * (requantise cfg n + 1) := by exact_mod_cast hhi
  constructor <;> linarith

/-- A whole number can be added before or after rounding. -/
theorem RoundsHalfUp.add {n : Nat} {q : ℚ} (h : RoundsHalfUp n q) (m : Nat) : RoundsHalfUp (m + n) (m + q) := by
  obtain ⟨hlo, hhi⟩ := h
  constructor <;> push_cast <;> linarith

section
variable {i : Nat} (hi : i < 3) (top : Colour)
include hi

/-- `Alpha` rounds the weighted sum before it clamps it. -/
theorem roundsHalfUp_alpha (eva evb : Nat) (bottom : Colour) :
    ∃ q, RoundsHalfUp q ((channel top i : ℚ) * eva / 16 + channel bottom i * evb / 16) ∧
      channel (alpha cfg eva evb top bottom) i = min 31 q := by
  refine ⟨_, ?_, channel_alpha eva evb top bottom hi⟩
  convert roundsHalfUp_requantise _ using 1
  push_cast
  ring

theorem roundsHalfUp_brighten {evy : Nat} (h : evy ≤ 16) : RoundsHalfUp (channel (brighten cfg evy top) i)
    ((channel top i : ℚ) + (31 - channel top i) * evy / 16) := by
  have hc : channel top i ≤ 31 := Nat.le_of_lt_succ (channel_lt top i)
  rw [channel_brighten h top hi]
  convert (roundsHalfUp_requantise _).add _ using 2
  push_cast [hc]
  rfl

theorem roundsHalfUp_darken {evy : Nat} (h : evy ≤ 16) : RoundsHalfUp (channel (darken cfg evy top) i)
    ((channel top i : ℚ) * (16 - evy) / 16) := by
  rw [channel_darken evy top hi]
  convert roundsHalfUp_requantise _ using 2
  push_cast [h]
  rfl

end

theorem weight_le (v : BitVec 5) : weight v ≤ 16 := Nat.min_le_right _ _

/-- A weight is its field clamped to 16. -/
theorem cast_weight (v : BitVec 5) : (weight v : ℚ) = if v ≤ 16 then (v.toNat : ℚ) else 16 := by
  rw [weight, cfg_evMax]
  split
  · next h => exact congrArg _ (Nat.min_eq_left h)
  · next h => exact congrArg _ (Nat.min_eq_right (Nat.le_of_lt (BitVec.not_le.1 h)))

/-! ### Which formula is selected (R230) -/

/-- Slot 0 is in target A and slot 1 in target B. -/
def TargetPair (bu : BlendUnit) : Prop := bu.slot0.tgtA = true ∧ bu.slot1.tgtB = true

/-- A semi-transparent object in a target pair forces alpha. -/
def ForcedAlpha (bu : BlendUnit) : Prop :=
  (bu.slot0.blendedObj = true ∨ bu.slot1.blendedObj = true) ∧ TargetPair bu

/-- Alpha is selected. -/
def SelectsAlpha (reg : Reg) (bu : BlendUnit) (en : Bool) : Prop :=
  en = true ∧ (ForcedAlpha bu ∨ (reg.bldcnt.mode = 1 ∧ TargetPair bu))

/-- The formula of slot 0 alone that mode `m` names, brighten (2) or darken (3), is selected. -/
def SelectsMode (m : BitVec 2) (reg : Reg) (bu : BlendUnit) (en : Bool) : Prop :=
  en = true ∧ ¬ForcedAlpha bu ∧ reg.bldcnt.mode = m ∧ bu.slot0.tgtA = true

section
variable {reg : Reg} {bu : BlendUnit} {en : Bool}

/-- The test of `compositeColor` for a forced alpha. -/
theorem forcedAlpha_iff :
    ((bu.slot0.blendedObj || bu.slot1.blendedObj) && (bu.slot0.tgtA && bu.slot1.tgtB)) = true ↔ ForcedAlpha bu := by
  simp only [ForcedAlpha, TargetPair, Bool.and_eq_true, Bool.or_eq_true]

/-- Unless alpha is forced, the mode selects the formula, and the target flags of the slots whether it applies. -/
theorem compositeColor_of_not_forced (h : ¬ForcedAlpha bu) : compositeColor cfg reg bu true =
    if reg.bldcnt.mode = 1 then
      if bu.slot0.tgtA && bu.slot1.tgtB then
        alpha cfg (weight reg.eva) (weight reg.evb) bu.slot0.color bu.slot1.color
      else bu.slot0.color
    else if reg.bldcnt.mode = 2 then
      if bu.slot0.tgtA then brighten cfg (weight reg.evy) bu.slot0.color else bu.slot0.color
    else if reg.bldcnt.mode = 3 then
      if bu.slot0.tgtA then darken cfg (weight reg.evy) bu.slot0.color else bu.slot0.color
    else bu.slot0.color := by
  refine (if_neg (mt forcedAlpha_iff.1 h)).trans ?_
  generalize reg.bldcnt.mode = m
  induction m using forall_twoBits <;> rfl

theorem compositeColor_of_selectsAlpha (h : SelectsAlpha reg bu en) :
    compositeColor cfg reg bu en = alpha cfg (weight reg.eva) (weight reg.evb) bu.slot0.color bu.slot1.color := by
  obtain ⟨rfl, hselect⟩ := h
  by_cases hforced : ForcedAlpha bu
  · exact if_pos (forcedAlpha_iff.2 hforced)
  · obtain ⟨hmode, hpair⟩ := hselect.resolve_left hforced
    rw [compositeColor_of_not_forced hforced, if_pos hmode, if_pos (Bool.and_eq_true_iff.2 hpair)]

theorem compositeColor_of_selectsBrighten (h : SelectsMode 2 reg bu en) :
    compositeColor cfg reg bu en = brighten cfg (weight reg.evy) bu.slot0.color := by
  obtain ⟨rfl, hforced, hmode, hA⟩ := h
  rw [compositeColor_of_not_forced hforced, hmode, if_neg (by decide), if_pos rfl, if_pos hA]

theorem compositeColor_of_selectsDarken (h : SelectsMode 3 reg bu en) :
    compositeColor cfg reg bu en = darken cfg (weight reg.evy) bu.slot0.color := by
  obtain ⟨rfl, hforced, hmode, hA⟩ := h
  rw [compositeColor_of_not_forced hforced, hmode, if_neg (by decide), if_neg (by decide), if_pos rfl, if_pos hA]

theorem compositeColor_of_selectsNone (halpha : ¬SelectsAlpha reg bu en) (hbright : ¬SelectsMode 2 reg bu en)
    (hdark : ¬SelectsMode 3 reg bu en) : compositeColor cfg reg bu en = bu.slot0.color := by
  cases en with
  | false => rfl
  | true =>
    have hforced : ¬ForcedAlpha bu := fun h => halpha ⟨rfl, .inl h⟩
    rw [compositeColor_of_not_forced hforced]
    by_cases hA : bu.slot0.tgtA = true
    · rw [if_neg fun hm => hbright ⟨rfl, hforced, hm, hA⟩, if_neg fun hm => hdark ⟨rfl, hforced, hm, hA⟩]
      split
      · next hm => exact if_neg fun hpair => halpha ⟨rfl, .inr ⟨hm, Bool.and_eq_true_iff.1 hpair⟩⟩
      · rfl
    · simp only [hA, Bool.false_and, Bool.false_eq_true, if_false, ite_self]

end

/-! ### The statements -/

/-- The bits of `CRES` that hold channel `i` of the colour. -/
theorem channel_of_cres (c : Colour) (i : Nat) : (c.setWidth 16).toNat / 2 ^ (5 * i) % 32 = channel c i := by
  rw [channel_eq, BitVec.toNat_setWidth_of_le (by decide)]

theorem bit15_of_cres (c : Colour) : (c.setWidth 16).getLsbD 15 = false := by
  rw [BitVec.getLsbD_setWidth, BitVec.getLsbD_of_ge c 15 (Nat.le_refl 15), Bool.and_false]

/-- Settles O46, by the formula selected; each rounds half up once. -/
theorem bldCompositeResult : Obligations.BldCompositeResult := by
  unfold Obligations.BldCompositeResult
  intro en s hstate r top bot w pair forced isAlpha isBright isDark
  have hw (v : BitVec 5) : (weight v : ℚ) = w v := cast_weight v
  refine ⟨_, exec_eq_next .., ?_⟩
  rw [execNext, bldComposite_of_backdropAdded hstate]
  refine ⟨rfl, bit15_of_cres _, fun i hi => ?_⟩
  intro o a b
  have ho : o = channel (compositeColor cfg r s.bu en) i := channel_of_cres _ i
  rw [ho, ← hw, ← hw, ← hw]
  refine ⟨fun h => ?alpha, fun h => ?bright, fun h => ?dark, fun halpha hbright hdark => ?none⟩
  case alpha =>
    rw [compositeColor_of_selectsAlpha h]
    exact roundsHalfUp_alpha hi ..
  case bright =>
    rw [compositeColor_of_selectsBrighten h]
    exact roundsHalfUp_brighten hi _ (weight_le _)
  case dark =>
    rw [compositeColor_of_selectsDarken h]
    exact roundsHalfUp_darken hi _ (weight_le _)
  case none => rw [compositeColor_of_selectsNone halpha hbright hdark]

/-! ### Identity weights -/

theorem brighten_zero (c : Colour) : brighten cfg 0 c = c :=
  colour_ext fun i hi => by rw [channel_brighten (by decide) c hi, requantise_cfg]; omega

theorem darken_zero (c : Colour) : darken cfg 0 c = c :=
  colour_ext fun i hi => by rw [channel_darken 0 c hi, requantise_cfg]; omega

theorem alpha_sixteen_zero (top bottom : Colour) : alpha cfg 16 0 top bottom = top :=
  colour_ext fun i hi => by
    have := channel_lt top i
    rw [channel_alpha 16 0 top bottom hi, requantise_cfg]
    omega

/-- Over an unset slot no alpha is selected, and a brighten or darken with weight 0 changes nothing. -/
theorem compositeColor_of_slot1_unset {reg : Reg} {bu : BlendUnit} (h1 : bu.slot1 = Layer.unset)
    (hevy : reg.bldcnt.mode = 2 ∨ reg.bldcnt.mode = 3 → reg.evy = 0) (en : Bool) :
    compositeColor cfg reg bu en = bu.slot0.color := by
  have hpair : ¬TargetPair bu := fun ⟨_, hB⟩ => by simp [h1, Layer.unset] at hB
  have halpha : ¬SelectsAlpha reg bu en := fun ⟨_, h⟩ => h.elim (fun hf => hpair hf.2) fun hm => hpair hm.2
  by_cases hbright : SelectsMode 2 reg bu en
  · have ⟨_, _, hmode, _⟩ := hbright
    rw [compositeColor_of_selectsBrighten hbright, hevy (.inl hmode)]
    exact brighten_zero _
  by_cases hdark : SelectsMode 3 reg bu en
  · have ⟨_, _, hmode, _⟩ := hdark
    rw [compositeColor_of_selectsDarken hdark, hevy (.inr hmode)]
    exact darken_zero _
  exact compositeColor_of_selectsNone halpha hbright hdark

/-- Settles O47: after `BLD_RESET` the backdrop lies over an unset slot; the identity weights are exact. -/
theorem identityWeightsPreserveColour : Obligations.IdentityWeightsPreserveColour := by
  unfold Obligations.IdentityWeightsPreserveColour
  refine ⟨fun color en s hevy => ⟨_, execAll_eq_next .., ?_⟩, fun top bottom => ?_⟩
  · have hadded := (TakesBackdrop.bldReset s).bldBackdrop color
    refine (bldComposite_cres hadded en).trans (congrArg (BitVec.setWidth 16) ?_)
    rw [bldBackdrop_of_takesBackdrop (TakesBackdrop.bldReset s), offerBackdrop_of_unset rfl]
    exact compositeColor_of_slot1_unset rfl hevy en
  · exact ⟨brighten_zero top, darken_zero top, alpha_sixteen_zero top bottom⟩

end Sys2Proof.Machine
end

section
/-! PROOFS. The slots after a sequence of adds are the best two layers (R220, R224, R233), and an add that leaves the
slots alone can be left out (R274). -/

namespace Sys2Proof.Machine

/-! ### Sorting layers as they come -/

/-- The layers sorted by priority, ties in order of addition. -/
def sortLayers (ls : List Layer) : List Layer := ls.insertionSort fun a b => a.prio ≤ b.prio

/-- `a` inserted into sorted layers behind those of its priority: it was added after them (R233). -/
def insertBehind (a : Layer) (ls : List Layer) : List Layer := ls.orderedInsert (fun a b => a.prio < b.prio) a

/-- It does not matter whether the later layer `a` or the earlier layer `b` is inserted first. -/
theorem orderedInsert_insertBehind (a b : Layer) (ls : List Layer) :
    (insertBehind a ls).orderedInsert (fun a b => a.prio ≤ b.prio) b =
      insertBehind a (ls.orderedInsert (fun a b => a.prio ≤ b.prio) b) := by
  unfold insertBehind
  induction ls with
  | nil =>
    by_cases hab : a.prio < b.prio
    · simp [hab, BitVec.not_le.2 hab]
    · simp [hab, BitVec.not_lt.1 hab]
  | cons c ls ih =>
    by_cases hac : a.prio < c.prio <;> by_cases hbc : b.prio ≤ c.prio
    · by_cases hab : a.prio < b.prio
      · simp [hac, hbc, hab, BitVec.not_le.2 hab]
      · simp [hac, hbc, hab, BitVec.not_lt.1 hab]
    · have hab : ¬b.prio ≤ a.prio := fun h => hbc (BitVec.le_of_lt (Nat.lt_of_le_of_lt h hac))
      simp [hac, hbc, hab]
    · have hab : ¬a.prio < b.prio := fun h => hac (Nat.lt_of_lt_of_le h hbc)
      simp [hac, hbc, hab]
    · simp [hac, hbc, ih]

/-- A layer added last is inserted behind the others. -/
theorem sortLayers_append (ls : List Layer) (a : Layer) : sortLayers (ls ++ [a]) = insertBehind a (sortLayers ls) := by
  induction ls with
  | nil => rfl
  | cons b ls ih =>
    have hsort (ms : List Layer) :
        sortLayers (b :: ms) = (sortLayers ms).orderedInsert (fun a b => a.prio ≤ b.prio) b := rfl
    rw [List.cons_append, hsort, ih, orderedInsert_insertBehind, ← hsort]

/-! ### The slots as the first two of the sorted layers -/

/-- The slots hold the first two of `ls`, and are unset where there is none. -/
structure SlotsAre (bu : BlendUnit) (ls : List Layer) : Prop where
  slot0 : bu.slot0 = ls.getD 0 Layer.unset
  slot1 : bu.slot1 = ls.getD 1 Layer.unset

section
variable {a : Layer} (ha : a.prio < 7)
include ha

theorem first_insertBehind (ls : List Layer) : (insertBehind a ls).getD 0 Layer.unset =
    if a.prio < (ls.getD 0 Layer.unset).prio then a else ls.getD 0 Layer.unset := by
  cases ls with
  | nil => exact (if_pos ha).symm
  | cons b ls =>
    rw [insertBehind, List.orderedInsert_cons, List.getD_cons_zero]
    split <;> rfl

theorem second_insertBehind (ls : List Layer) : (insertBehind a ls).getD 1 Layer.unset =
    if a.prio < (ls.getD 0 Layer.unset).prio then ls.getD 0 Layer.unset
    else if a.prio < (ls.getD 1 Layer.unset).prio then a else ls.getD 1 Layer.unset := by
  cases ls with
  | nil => exact (if_pos ha).symm
  | cons b ls =>
    rw [insertBehind, List.orderedInsert_cons, List.getD_cons_zero, List.getD_cons_succ]
    split
    · rfl
    · exact first_insertBehind ha ls

/-- Offering a layer to the first two is inserting it among all: it moves the others back at most one place. -/
theorem SlotsAre.offer {bu : BlendUnit} {ls : List Layer} (h : SlotsAre bu ls) :
    SlotsAre (offer a bu) (insertBehind a ls) := by
  obtain ⟨h0, h1⟩ := h
  constructor
  · rw [first_insertBehind ha, ← h0, Machine.offer]
    split
    · rfl
    · split <;> rfl
  · rw [second_insertBehind ha, ← h0, ← h1, Machine.offer]
    split
    · rfl
    · split <;> rfl

end

/-! ### A sequence of adds -/

/-- `t` is `s` with the layers `ls` added to the blend unit, the last of rank `r` at most. -/
structure AddedTo (s : State) (ls : List Layer) (r : Nat) (t : State) : Prop where
  frame : ∃ bu, t = { s with bu := bu }
  rank : BuState.rank t.bu.state ≤ r
  slots : SlotsAre t.bu (sortLayers ls)

theorem toNat_setWidth_three_le (p : BitVec 2) : (p.setWidth 3).toNat ≤ 3 := by
  rw [BitVec.toNat_setWidth]
  omega

theorem addedTo_bldReset (s : State) : AddedTo s [] 0 (bldReset s) := ⟨⟨_, rfl⟩, Nat.le_refl 0, ⟨rfl, rfl⟩⟩

section
variable {s t : State} {ls : List Layer} {r : Nat}

/-- The object takes the first of two unset slots (R223). -/
theorem AddedTo.object (h : AddedTo s [] 0 t) (o : Sample × Bool) :
    AddedTo s [layerOf s.host.reg.bldcnt 4 o.1.color (o.1.prio.setWidth 3) o.2] 1
      (execNext (.bldObj o.1.color (o.1.prio.setWidth 3) o.2) t) := by
  obtain ⟨⟨bu, rfl⟩, hrank, hslots⟩ := h
  have hreset : bu.state = .reset := by
    cases hst : bu.state <;> simp [hst, BuState.rank] at hrank ⊢
  rw [execNext, bldObj_of_reset hreset o.1.color (toNat_setWidth_three_le o.1.prio)]
  exact ⟨⟨_, rfl⟩, Nat.le_refl 1, ⟨rfl, hslots.slot1⟩⟩

/-- A background that may still be added finds its place among the layers already added (R224). -/
theorem AddedTo.background (h : AddedTo s ls r t) {n : BitVec 2} (hr : r < 2 + n.toNat) (c : Sample) :
    AddedTo s (ls ++ [layerOf s.host.reg.bldcnt (n.setWidth 3) c.color (c.prio.setWidth 3) false]) (2 + n.toNat)
      (execNext (addCommand n c) t) := by
  obtain ⟨⟨bu, rfl⟩, hrank, hslots⟩ := h
  have hp := toNat_setWidth_three_le c.prio
  have hoffer := hslots.offer
    (a := layerOf s.host.reg.bldcnt (n.setWidth 3) c.color (c.prio.setWidth 3) false) (Nat.lt_of_le_of_lt hp (by decide))
  rw [← sortLayers_append] at hoffer
  rw [addCommand_eq_bgCommand, execNext_bgCommand_of_legal (Nat.lt_of_le_of_lt hrank hr) c.color hp]
  exact ⟨⟨_, rfl⟩, Nat.le_of_eq (rank_bgAdded n), ⟨hoffer.slot0, hoffer.slot1⟩⟩

theorem AddedTo.eq_with_bu (h : AddedTo s ls r t) : t = { s with bu := t.bu } := by
  obtain ⟨⟨bu, rfl⟩, -, -⟩ := h
  rfl

/-- A layer that may be missing is added or not. -/
theorem AddedTo.option {α : Type} (h : AddedTo s ls r t) {r' : Nat} (hr : r ≤ r') {layer : α → Layer}
    {command : α → Instr} (hadd : ∀ a, AddedTo s (ls ++ [layer a]) r' (execNext (command a) t)) (o : Option α) :
    AddedTo s (ls ++ (o.map layer).toList) r' ((o.map command).toList.foldl (fun t i => execNext i t) t) := by
  cases o with
  | none => exact ⟨h.frame, Nat.le_trans h.rank hr, (List.append_nil ls).symm ▸ h.slots⟩
  | some a => exact hadd a

end

/-- Settles O48, layer by layer: each add inserts its layer behind those added before it. -/
theorem slotsAreTopTwoLayers : Obligations.SlotsAreTopTwoLayers := by
  unfold Obligations.SlotsAreTopTwoLayers
  intro obj bg s sorted
  have hreset := addedTo_bldReset s
  have hobj := hreset.option (Nat.zero_le 1) hreset.object obj
  have hbg0 := hobj.option (by decide) (hobj.background (n := 0) (by decide)) (bg 0)
  have hbg1 := hbg0.option (by decide) (hbg0.background (n := 1) (by decide)) (bg 1)
  have hbg2 := hbg1.option (by decide) (hbg1.background (n := 2) (by decide)) (bg 2)
  have hbg3 := hbg2.option (by decide) (hbg2.background (n := 3) (by decide)) (bg 3)
  have hadded : AddedTo s (addedLayers s.host.reg.bldcnt obj bg) 5
      ((addCommands obj bg).foldl (fun t i => execNext i t) s) := by
    simp only [addedLayers, addCommands, List.flatMap_cons, List.flatMap_nil, List.append_nil, List.foldl_append,
      List.foldl_cons, List.cons_append]
    simp only [List.nil_append, List.append_assoc] at hbg3
    exact hbg3
  exact ⟨_, execAll_eq_next .., hadded.eq_with_bu, hadded.slots.slot0, hadded.slots.slot1⟩

/-! ### An add that can be left out -/

/-- A background is put in no slot iff its priority is not less than slot 1's: no slot holds it already. -/
theorem BlendInv.offer_slots_iff {s : State} (h : BlendInv s) {l : Layer} (hne0 : s.bu.slot0.layer ≠ l.layer)
    (hne1 : s.bu.slot1.layer ≠ l.layer) :
    ((offer l s.bu).slot0 = s.bu.slot0 ∧ (offer l s.bu).slot1 = s.bu.slot1) ↔ s.bu.slot1.prio ≤ l.prio := by
  constructor
  · rintro ⟨h0, h1⟩
    refine BitVec.not_lt.1 fun hlt => ?_
    rcases Nat.lt_or_ge l.prio.toNat s.bu.slot0.prio.toNat with hlt0 | hle0
    · rw [offer_of_lt_slot0 hlt0] at h0
      exact hne0 (congrArg Layer.layer h0.symm)
    · rw [offer_of_lt_slot1 hle0 hlt] at h1
      exact hne1 (congrArg Layer.layer h1.symm)
  · intro hle
    rw [offer_of_le (BitVec.le_trans h.ranked hle) hle]
    exact ⟨rfl, rfl⟩

theorem offer_withState (l : Layer) (bu : BlendUnit) (st : BuState) :
    offer l { bu with state := st } = { offer l bu with state := st } := by
  unfold offer
  split_ifs <;> rfl

theorem offerBackdrop_withState (l : Layer) (bu : BlendUnit) (st : BuState) :
    offerBackdrop l { bu with state := st } = { offerBackdrop l bu with state := st } := by
  unfold offerBackdrop
  split_ifs <;> rfl

/-- `s` with another state of the blend unit. -/
def withBuState (st : BuState) (s : State) : State := { s with bu := { s.bu with state := st } }

/-- An add of a background overwrites the state of the blend unit that it finds. -/
theorem execNext_addCommand_withBuState {s : State} {st : BuState} {n : BitVec 2}
    (hs : BuState.rank s.bu.state < 2 + n.toNat) (hst : BuState.rank st < 2 + n.toNat) (c : Sample) :
    execNext (addCommand n c) (withBuState st s) = execNext (addCommand n c) s := by
  have hp := toNat_setWidth_three_le c.prio
  rw [addCommand_eq_bgCommand, execNext_bgCommand_of_legal hs c.color hp,
    execNext_bgCommand_of_legal (s := withBuState st s) hst c.color hp]
  simp only [withBuState, offer_withState]

/-- So does the backdrop. -/
theorem bldBackdrop_withBuState {s : State} {st : BuState} (hs : TakesBackdrop s) (hst : BuState.rank st ≤ 5)
    (color : Colour) : bldBackdrop color (withBuState st s) = bldBackdrop color s := by
  rw [bldBackdrop_of_takesBackdrop hs, bldBackdrop_of_takesBackdrop (s := withBuState st s) hst]
  simp only [withBuState, offerBackdrop_withState]

/-- A legal add of a background whose priority is not less than slot 1's changes the state of the blend unit alone. -/
theorem BlendInv.addCommand_eq_withBuState {s : State} (h : BlendInv s) {n : BitVec 2} {c : Sample}
    (hr : BuState.rank s.bu.state < 2 + n.toNat) (hle : s.bu.slot1.prio ≤ c.prio.setWidth 3) :
    execNext (addCommand n c) s = withBuState (bgAdded n) s := by
  rw [addCommand_eq_bgCommand, execNext_bgCommand_of_legal hr c.color (toNat_setWidth_three_le c.prio),
    offer_of_le (BitVec.le_trans h.ranked hle) hle]
  rfl

/-- Backgrounds and, after them, the backdrop. -/
def laterCommands (later : List (BitVec 2 × Sample)) (backdrop : Colour) : List Instr :=
  later.map (fun b => addCommand b.1 b.2) ++ [.bldBackdrop backdrop]

/-- The first add after background `n` overwrites the state that background `n` left. -/
theorem foldl_laterCommands_withBuState {s : State} {n : BitVec 2} (hr : BuState.rank s.bu.state < 2 + n.toNat)
    {later : List (BitVec 2 × Sample)} (hlater : (n :: later.map (·.1)).Pairwise (· < ·)) (backdrop : Colour) :
    (laterCommands later backdrop).foldl (fun t i => execNext i t) (withBuState (bgAdded n) s) =
      (laterCommands later backdrop).foldl (fun t i => execNext i t) s := by
  have hn := n.isLt
  have hleft := rank_bgAdded n
  cases later with
  | nil => exact bldBackdrop_withBuState (Nat.le_of_lt_succ (by omega)) (by omega) backdrop
  | cons b later =>
    have hb : n.toNat < b.1.toNat := (List.pairwise_cons.1 hlater).1 _ List.mem_cons_self
    have hfirst := execNext_addCommand_withBuState (s := s) (st := bgAdded n) (n := b.1) (by omega) (by omega) b.2
    rw [laterCommands, List.map_cons, List.cons_append, List.foldl_cons, List.foldl_cons, hfirst]

theorem TakesBackdrop.addCommand {s : State} (h : TakesBackdrop s) (n : BitVec 2) (c : Sample) :
    TakesBackdrop (execNext (addCommand n c) s) := by
  rw [addCommand_eq_bgCommand, execNext_bgCommand]
  exact h.addBackground ..

/-- No background keeps the backdrop from being added. -/
theorem TakesBackdrop.laterCommands_state {s : State} (h : TakesBackdrop s) (later : List (BitVec 2 × Sample))
    (backdrop : Colour) :
    ((laterCommands later backdrop).foldl (fun t i => execNext i t) s).bu.state = .backdropAdded := by
  induction later generalizing s with
  | nil => exact h.bldBackdrop backdrop
  | cons b later ih => exact ih (h.addCommand b.1 b.2)

/-- Settles O49: such an add leaves the slots and changes only the state of the unit, which the next add overwrites. -/
theorem prioritySkip : Obligations.PrioritySkip := by
  unfold Obligations.PrioritySkip
  intro n c s hinv hlegal
  have hr : BuState.rank s.bu.state < 2 + n.toNat := (legalIn_bgCommand ..).1 hlegal
  refine ⟨⟨_, exec_eq_next .., ?slots⟩, ?skip⟩
  case slots =>
    rw [addCommand_eq_bgCommand, execNext_bgCommand_of_legal hr c.color (toNat_setWidth_three_le c.prio)]
    exact hinv.offer_slots_iff (hinv.slot0.layer_ne_background n hr) (hinv.slot1.layer_ne_background n hr)
  case skip =>
    intro later backdrop en hle hlater rest
    have htakes : TakesBackdrop s := by rw [TakesBackdrop]; omega
    have hrest : rest = laterCommands later backdrop ++ [.bldComposite en] := by
      rw [laterCommands, List.append_assoc]
      rfl
    refine ⟨_, ?same, execAll_eq_next rest s, ?composited⟩
    case same =>
      rw [execAll_eq_next, List.foldl_cons, hinv.addCommand_eq_withBuState hr hle, hrest, List.foldl_append,
        foldl_laterCommands_withBuState hr hlater, ← List.foldl_append]
    case composited =>
      rw [hrest, List.foldl_append]
      exact congrArg (fun t : State => t.bu.state)
        (bldComposite_of_backdropAdded (htakes.laterCommands_state later backdrop) en)

end Sys2Proof.Machine
end

section
/-! PROOFS. The dirty tracker (R250 to R256): the snapshot of the registers, the relevant dirty bits, and what
`START_FRAME` and `SHOULD_FLUSH` make of them. -/

namespace Sys2Proof.Machine

/-! ### Flags by number -/

/-- A bit vector is the flags that the numbers of `k` bits select, if they select every one of its bits. -/
theorem eq_iff_bitOf {w k : Nat} (hk : w ≤ 2 ^ k) {v v' : BitVec w} :
    v = v' ↔ ∀ n : BitVec k, bitOf v n = bitOf v' n := by
  refine ⟨fun h _ => h ▸ rfl, fun h => BitVec.eq_of_getLsbD_eq fun i hi => ?_⟩
  have hn := h (BitVec.ofNat k i)
  rwa [bitOf, bitOf, BitVec.toNat_ofNat, Nat.mod_eq_of_lt (Nat.lt_of_lt_of_le hi hk)] at hn

theorem ne_iff_bitOf {w k : Nat} (hk : w ≤ 2 ^ k) {v v' : BitVec w} :
    v ≠ v' ↔ ∃ n : BitVec k, bitOf v n ≠ bitOf v' n := by
  rw [ne_eq, eq_iff_bitOf hk, not_forall]

/-- Two groups of flags share a flag that is set iff their conjunction is not 0. -/
theorem and_ne_zero_iff_getLsbD {w : Nat} (v v' : BitVec w) :
    v &&& v' ≠ 0#w ↔ ∃ n : Nat, v.getLsbD n = true ∧ v'.getLsbD n = true := by
  rw [ne_eq, BitVec.eq_of_getLsbD_eq_iff]
  simp only [BitVec.getLsbD_and, BitVec.getLsbD_zero, not_forall, Bool.not_eq_false, Bool.and_eq_true]
  exact exists_congr fun n => ⟨fun ⟨_, h⟩ => h, fun h => ⟨BitVec.lt_of_getLsbD h.1, h⟩⟩

theorem and_ne_zero_iff_bitOf {w k : Nat} (hk : w ≤ 2 ^ k) (v v' : BitVec w) :
    v &&& v' ≠ 0#w ↔ ∃ n : BitVec k, bitOf v n = true ∧ bitOf v' n = true := by
  simp [ne_iff_bitOf hk, bitOf]

theorem exists_twoBits {p : BitVec 2 → Prop} : (∃ n, p n) ↔ p 0 ∨ p 1 ∨ p 2 ∨ p 3 := by
  constructor
  · rintro ⟨n, hn⟩
    exact forall_twoBits (p := fun n => p n → _) .inl (.inr ∘ .inl) (.inr ∘ .inr ∘ .inl) (.inr ∘ .inr ∘ .inr) n hn
  · rintro (h | h | h | h) <;> exact ⟨_, h⟩

/-! ### The snapshot (R251, R252) -/

theorem bitOf_tracked : ∀ (m : BitVec 3) (n : BitVec 2), bitOf (tracked m) n = true ↔ Tracks m n := by
  unfold Tracks
  decide

/-- Four flags side by side, flag `n` at bit `n`. -/
theorem bitOf_flags : ∀ (f3 f2 f1 f0 : Bool) (n : BitVec 2),
    bitOf (BitVec.ofBool f3 ++ BitVec.ofBool f2 ++ BitVec.ofBool f1 ++ BitVec.ofBool f0 : BitVec 4) n =
      Tab.get #v[f0, f1, f2, f3] n := by
  decide

theorem bitOf_mosaicFlags (reg : Reg) (n : BitVec 2) : bitOf (mosaicFlags reg) n = (Tab.get reg.bgcnt n).mosaic := by
  rw [mosaicFlags, bitOf_flags]
  revert n
  exact forall_twoBits rfl rfl rfl rfl

theorem isSnapOf_snapOf (reg : Reg) : IsSnapOf reg (snapOf reg) where
  tag := rfl
  en n := by
    rw [← bitOf_tracked]
    simp [snapOf, bitOf, and_comm]
  mos n := by
    rw [← bitOf_tracked, ← bitOf_mosaicFlags]
    by_cases htiled : reg.dispcnt.mode.toNat ≤ 2 <;> simp [snapOf, htiled, bitOf, and_comm]
  gran htiled := by simp [snapOf, htiled]
  noGran hbitmap := by simp [snapOf, Nat.not_le.2 hbitmap]
  page := by simp [snapOf]

/-- The comparison with the snapshot, field by field (R255): the order in which it is made does not matter. -/
theorem snapDiffers_iff (cur old : Snap) : snapDiffers cur old = true ↔
    cur.tag ≠ old.tag ∨ (∃ n : BitVec 2, bitOf cur.en n ≠ bitOf old.en n ∨ bitOf cur.mos n ≠ bitOf old.mos n) ∨
    cur.page ≠ old.page ∨
    ((∃ n : BitVec 2, bitOf cur.en n = true ∧ bitOf cur.mos n = true) ∧
      (cur.granH ≠ old.granH ∨ cur.granV ≠ old.granV)) := by
  have hk : 4 ≤ 2 ^ 2 := by decide
  rw [exists_or, ← ne_iff_bitOf hk, ← ne_iff_bitOf hk, ← and_ne_zero_iff_bitOf hk, snapDiffers]
  by_cases htag : cur.tag = old.tag <;> simp [htag, or_assoc]

theorem snapDiffers_self (c : Snap) : snapDiffers c c = false := by simp [snapDiffers]

/-! ### The relevant dirty bits (R254) -/

/-- A dirty bit of R50 is set in its own mask alone. -/
theorem getLsbD_dirtyBit {k : Nat} (hk : k < 21) (n : Nat) : (dirtyBit k).getLsbD n = true ↔ n = k := by
  rw [dirtyBit, ← BitVec.twoPow_eq, BitVec.getLsbD_twoPow, decide_eq_true hk, Bool.true_and, decide_eq_true_iff,
    eq_comm]

theorem getLsbD_dirtyIf (c : Bool) (m : DirtySet) (n : Nat) :
    (dirtyIf c m).getLsbD n = true ↔ c = true ∧ m.getLsbD n = true := by
  cases c <;> simp [dirtyIf]

theorem getLsbD_tiledBits (n : Nat) : tiledBits.getLsbD n = true ↔ TiledBit n := by
  simp only [tiledBits, vramBgBlock, palBg, BitVec.getLsbD_or, Bool.or_eq_true, getLsbD_dirtyBit, Nat.reduceAdd,
    Nat.reduceLT, TiledBit]
  tauto

/-- The bit of a bitmap's page is the first of its pair or the second. -/
theorem getLsbD_dirtyBit_page {k : Nat} (hk : k < 20) (page : Bool) (n : Nat) :
    (dirtyBit (k + page.toNat)).getLsbD n = true ↔ n = k + if page then 1 else 0 := by
  rw [getLsbD_dirtyBit (Nat.add_lt_add_of_lt_of_le hk page.toNat_le), Bool.toNat]
  cases page <;> rfl

/-- `Rel(REG)` holds the numbers of the relevant bits, mode by mode: in a tiled mode the bits that every visible
background shares are taken once for all of them, or with each. -/
theorem getLsbD_relevantBits (reg : Reg) (n : Nat) : (relevantBits reg).getLsbD n = true ↔ RelevantBit reg n := by
  have halways : (ioDispcnt ||| ioBlend ||| compWindow).getLsbD n = true ↔ n = 0 ∨ n = 1 ∨ n = 6 := by
    simp [ioDispcnt, ioBlend, compWindow, getLsbD_dirtyBit, or_assoc]
  have hmode : ∀ m : BitVec 3, m = 0 ∨ m = 1 ∨ m = 2 ∨ m = 3 ∨ m = 4 ∨ m = 5 ∨ m = 6 ∨ m = 7 := by decide
  rw [relevantBits, BitVec.getLsbD_or, Bool.or_eq_true, halways, RelevantBit, or_assoc, or_assoc]
  refine or_congr .rfl (or_congr .rfl (or_congr .rfl ?_))
  rcases hmode reg.dispcnt.mode with h | h | h | h | h | h | h | h
  · simp [backgroundBits, h, ioBgOffset, getLsbD_dirtyBit, getLsbD_dirtyIf, getLsbD_tiledBits, exists_twoBits,
      or_and_right, and_or_left, or_assoc, or_left_comm]
  · simp [backgroundBits, h, ioBgOffset, compAffine, getLsbD_dirtyBit, getLsbD_dirtyIf, getLsbD_tiledBits,
      exists_twoBits, or_and_right, and_or_left, or_assoc, or_left_comm]
  · simp [backgroundBits, h, compAffine, getLsbD_dirtyBit, getLsbD_dirtyIf, getLsbD_tiledBits, or_and_right,
      and_or_left, or_assoc, or_left_comm]
  · simp [backgroundBits, h, vramBitmap3, getLsbD_dirtyBit, getLsbD_dirtyIf]
  · simp [backgroundBits, h, vramBitmap4, palBg, getLsbD_dirtyBit, getLsbD_dirtyBit_page, getLsbD_dirtyIf]
  · simp [backgroundBits, h, vramBitmap5, getLsbD_dirtyBit_page, getLsbD_dirtyIf]
  · simp [backgroundBits, h]
  · simp [backgroundBits, h]

/-- `pal.obj` and `vram.obj` are in no `Rel`. -/
theorem not_relevantBit_of_obj (reg : Reg) {n : Nat} (hn : n = 10 ∨ n = 20) : ¬RelevantBit reg n := by
  cases hpage : reg.dispcnt.page <;> rcases hn with rfl | rfl <;> simp [RelevantBit, TiledBit, hpage, exists_twoBits]

/-! ### The commands in a mode that is not reserved (R253, R255, R256) -/

section
variable {s : State} (hmode : s.host.reg.dispcnt.mode ≤ 5)
include hmode

theorem startFrame_eq : startFrame s = { s with snap := snapOf s.host.reg } := by
  rw [startFrame, (modeFault_eq_zero s).2 hmode, guarded_zero]

theorem shouldFlush_eq : shouldFlush s =
    { s with
      flush := (s.dirty &&& relevantBits s.host.reg) != 0#21 || snapDiffers (snapOf s.host.reg) s.snap
      dirty := s.dirty &&& ~~~relevantBits s.host.reg
      snap := snapOf s.host.reg } := by
  simp only [shouldFlush, (modeFault_eq_zero s).2 hmode, guarded_zero]

/-- The answer: a relevant bit is dirty, or the registers are not those of the snapshot. -/
theorem shouldFlush_flush : (shouldFlush s).flush = true ↔
    (∃ n : Nat, s.dirty.getLsbD n = true ∧ RelevantBit s.host.reg n) ∨
      snapDiffers (snapOf s.host.reg) s.snap = true := by
  rw [shouldFlush_eq hmode, Bool.or_eq_true, bne_iff_ne, and_ne_zero_iff_getLsbD]
  simp only [getLsbD_relevantBits]

theorem getLsbD_shouldFlush_dirty (n : Nat) :
    (shouldFlush s).dirty.getLsbD n = true ↔ s.dirty.getLsbD n = true ∧ ¬RelevantBit s.host.reg n := by
  rw [shouldFlush_eq hmode, ← getLsbD_relevantBits, BitVec.getLsbD_and, BitVec.getLsbD_not]
  rw [Bool.and_eq_true, Bool.and_eq_true, Bool.not_eq_true', Bool.not_eq_true, decide_eq_true_iff]
  exact and_congr_right fun hdirty => and_iff_right (BitVec.lt_of_getLsbD hdirty)

/-- Right after a `SHOULD_FLUSH` no relevant bit is dirty and the snapshot is that of the registers. -/
theorem shouldFlush_shouldFlush_flush : (shouldFlush (shouldFlush s)).flush = false := by
  have hhost : (shouldFlush s).host = s.host := (SameHost.execNext .shouldFlush s).host
  rw [← Bool.not_eq_true, shouldFlush_flush (hhost ▸ hmode), hhost]
  rintro (⟨n, hdirty, hrel⟩ | hdiffers)
  · exact ((getLsbD_shouldFlush_dirty hmode n).1 hdirty).2 hrel
  · rw [shouldFlush_eq hmode, snapDiffers_self] at hdiffers
    exact absurd hdiffers Bool.false_ne_true

end

/-- A dirty bit that is never relevant is changed by no command (R50, R254). -/
theorem getLsbD_execNext_dirty_of_obj (i : Instr) (s : State) {n : Nat} (hn : n = 10 ∨ n = 20) :
    (execNext i s).dirty.getLsbD n = s.dirty.getLsbD n := by
  by_cases hdirty : (execNext i s).dirty = s.dirty
  · rw [hdirty]
  · obtain rfl := (WritesOnly.execNext i s).dirty hdirty
    refine guarded_keeps (P := fun t => t.dirty.getLsbD n = s.dirty.getLsbD n) (fun hb => ?_) fun _ => rfl
    have hmode : s.host.reg.dispcnt.mode ≤ 5 := (modeFault_eq_zero s).1 hb
    have h := getLsbD_shouldFlush_dirty hmode n
    rw [shouldFlush_eq hmode] at h
    rw [Bool.eq_iff_iff, h]
    exact and_iff_left (not_relevantBit_of_obj s.host.reg hn)

/-- Settles O58: no fault is taken, and the snapshot is `Snap(REG)`. -/
theorem startFrameTakesSnapshot : Obligations.StartFrameTakesSnapshot := by
  unfold Obligations.StartFrameTakesSnapshot
  intro s hmode
  refine ⟨startFrame s, rfl, ?_⟩
  rw [startFrame_eq hmode]
  exact ⟨rfl, isSnapOf_snapOf s.host.reg⟩

/-- Settles O59: no fault is taken; the mask and the comparison are read bit by bit and field by field. -/
theorem shouldFlushAnswer : Obligations.ShouldFlushAnswer := by
  unfold Obligations.ShouldFlushAnswer
  intro s hmode
  have hsnap : (shouldFlush s).snap = snapOf s.host.reg := by rw [shouldFlush_eq hmode]
  refine ⟨shouldFlush s, rfl, by rw [shouldFlush_eq hmode], hsnap ▸ isSnapOf_snapOf s.host.reg,
    getLsbD_shouldFlush_dirty hmode, ?_⟩
  rw [shouldFlush_flush hmode, snapDiffers_iff, hsnap]

/-- Settles O60: the first answer clears all that a second one would see, and `io.dispcnt` is dirty at reset. -/
theorem flushIsNotRetried : Obligations.FlushIsNotRetried := by
  unfold Obligations.FlushIsNotRetried
  refine ⟨fun s hmode => ⟨_, _, rfl, rfl, shouldFlush_shouldFlush_flush hmode⟩, fun m inbox hmode => ⟨_, rfl, ?_⟩,
    fun i s t h => ?_⟩
  · exact (shouldFlush_flush (s := State.launch m inbox) hmode).2
      (.inl ⟨0, by simp [State.launch], .inl rfl⟩)
  · obtain rfl := eq_execNext_of_exec h
    exact ⟨getLsbD_execNext_dirty_of_obj i s (.inl rfl), getLsbD_execNext_dirty_of_obj i s (.inr rfl)⟩

end Sys2Proof.Machine
end

section
/-! PROOFS. The accumulators (R270, R271): what `ACC_SEED` and `ACC_STEP` make of each group, and what the groups hold
after some columns. -/

namespace Sys2Proof.Machine

/-- A table of two whose entries were both replaced by values of `f` holds the values of `f`. -/
theorem Tab.get_set_both {α : Type} (v : Vector α 2) (f : BitVec 1 → α) (k : BitVec 1) :
    Tab.get (Tab.set (Tab.set v 0#1 (f 0#1)) 1#1 (f 1#1)) k = f k := by
  have hk : ∀ j : BitVec 1, j = 0#1 ∨ j = 1#1 := by decide
  obtain rfl | rfl := hk k
  · rw [Tab.get_set_ne _ _ _ _ _ (by decide), Tab.get_set_self]
  · rw [Tab.get_set_self]

/-- `ACC_SEED` extends the sign of the reference point of each group (R270). -/
theorem get_accSeed_acc (s : State) (k : BitVec 1) : Tab.get (accSeed s).acc k =
    { x := (Tab.get s.host.reg.aff k).x.signExtend 32, y := (Tab.get s.host.reg.aff k).y.signExtend 32 } :=
  Tab.get_set_both s.acc (fun k =>
    { x := (Tab.get s.host.reg.aff k).x.signExtend 32, y := (Tab.get s.host.reg.aff k).y.signExtend 32 }) k

/-- `ACC_STEP` adds the column delta of each group (R271). -/
theorem get_accStep_acc (s : State) (k : BitVec 1) :
    Tab.get (accStep s).acc k = accAdvance (Tab.get s.host.reg.aff k) (Tab.get s.acc k) :=
  Tab.get_set_both s.acc (fun k => accAdvance (Tab.get s.host.reg.aff k) (Tab.get s.acc k)) k

/-- A signed addend of fewer bits, added to a 32-bit word. -/
theorem toInt_add_signExtend {n : Nat} (hn : n ≤ 32) (v : BitVec 32) (d : BitVec n) :
    (v + d.signExtend 32).toInt = (v.toInt + d.toInt).bmod (2 ^ 32) := by
  rw [BitVec.toInt_add, BitVec.toInt_signExtend_of_le hn]

/-- Settles O50: both entries of `ACC` are replaced, by the sign-extended values. -/
theorem accumulatorCommands : Obligations.AccumulatorCommands := by
  unfold Obligations.AccumulatorCommands
  refine fun s => ⟨⟨accSeed s, exec_eq_next .., rfl, fun k => ?seed⟩,
    ⟨accStep s, exec_eq_next .., rfl, fun k => ?step⟩⟩
  case seed =>
    rw [get_accSeed_acc]
    exact ⟨BitVec.toInt_signExtend_of_le (by decide), BitVec.toInt_signExtend_of_le (by decide)⟩
  case step =>
    rw [get_accStep_acc]
    exact ⟨toInt_add_signExtend (by decide) .., toInt_add_signExtend (by decide) ..⟩

/-- The value `v` that started at `v₀` and was advanced `n` times by `d`, modulo 2^32. -/
def AdvancedBy (v₀ d : Int) (n : Nat) (v : Int) : Prop := v = (v₀ + n * d).bmod (2 ^ 32)

theorem AdvancedBy.zero (v : BitVec 32) (d : Int) : AdvancedBy v.toInt d 0 v.toInt := by
  rw [AdvancedBy, Nat.cast_zero, zero_mul, add_zero, BitVec.toInt_bmod_cancel]

theorem AdvancedBy.succ {v₀ d v : Int} {n : Nat} (h : AdvancedBy v₀ d n v) :
    AdvancedBy v₀ d (n + 1) ((v + d).bmod (2 ^ 32)) := by
  rw [AdvancedBy, h, Int.bmod_add_bmod, Nat.cast_succ, add_one_mul, add_assoc]

/-- Each accumulator of `t` is the reference point of `s` advanced `n` times by the column delta. -/
def AccAfter (s : State) (n : Nat) (t : State) : Prop := ∀ k : BitVec 1,
  AdvancedBy (Tab.get s.host.reg.aff k).x.toInt (Tab.get s.host.reg.aff k).pa.toInt n (Tab.get t.acc k).x.toInt ∧
  AdvancedBy (Tab.get s.host.reg.aff k).y.toInt (Tab.get s.host.reg.aff k).pc.toInt n (Tab.get t.acc k).y.toInt

theorem AccAfter.accSeed (s : State) : AccAfter s 0 (accSeed s) := by
  intro k
  have hx : ((Tab.get s.host.reg.aff k).x.signExtend 32).toInt = _ := BitVec.toInt_signExtend_of_le (by decide)
  have hy : ((Tab.get s.host.reg.aff k).y.signExtend 32).toInt = _ := BitVec.toInt_signExtend_of_le (by decide)
  rw [get_accSeed_acc, ← hx, ← hy]
  exact ⟨.zero .., .zero ..⟩

theorem AccAfter.accStep {s t : State} {n : Nat} (h : AccAfter s n t) (hhost : t.host = s.host) :
    AccAfter s (n + 1) (accStep t) := by
  intro k
  obtain ⟨hx, hy⟩ := h k
  rw [get_accStep_acc, hhost, accAdvance, toInt_add_signExtend (by decide), toInt_add_signExtend (by decide)]
  exact ⟨hx.succ, hy.succ⟩

end Sys2Proof.Machine
end

section
/-! PROOFS. The state that a pixel leaves (R275): no command of a pixel faults, because the blend commands come in legal
order, so each changes only the results it writes. -/

namespace Sys2Proof.Machine

/-! ### The commands of a pixel -/

theorem sampleBg_eq_with_bres (kind : BgKind) (n : BitVec 2) (x y : BitVec 8) (s : State) :
    sampleBg kind n x y s = { s with bres := (sampleBg kind n x y s).bres } := by
  have hset (v : Option Colour) : setBres v s = { s with bres := (setBres v s).bres } := by cases v <;> rfl
  cases kind with
  | none => rfl
  | tile | affine | bitmap3 | bitmap4 | bitmap5 => exact hset _

/-- The blend command of a background is the command of its number. -/
theorem bldBg_eq_execNext (n : BitVec 2) (color : Colour) (prio : BitVec 3) (s : State) :
    bldBg n color prio s = execNext (bgCommand n color prio) s := by
  induction n using forall_twoBits <;> rfl

/-- `t` is `s` after the commands of a pixel up to a blend unit of rank `r` at most. -/
structure PixelSoFar (s : State) (r : Nat) (t : State) : Prop where
  frame : t = { s with qset := 0, ores := t.ores, wres := t.wres, bres := t.bres, cres := t.cres, bu := t.bu }
  rank : BuState.rank t.bu.state ≤ r

theorem PixelSoFar.bldReset (s : State) (x y : BitVec 8) (ow : Bool) :
    PixelSoFar s 0 (bldReset (winEval x y ow (smpObj x y s))) := ⟨rfl, Nat.le_refl 0⟩

section
variable {s t : State} {r : Nat} (h : PixelSoFar s r t)
include h

theorem PixelSoFar.host : t.host = s.host := by
  rw [h.frame]

theorem PixelSoFar.mono {r' : Nat} (hr : r ≤ r') : PixelSoFar s r' t := ⟨h.frame, Nat.le_trans h.rank hr⟩

theorem PixelSoFar.withBlend (cres : Half) {bu : BlendUnit} {r' : Nat} (hr : BuState.rank bu.state ≤ r') :
    PixelSoFar s r' { t with cres := cres, bu := bu } :=
  ⟨congrArg (fun u : State => { u with cres := cres, bu := bu }) h.frame, hr⟩

theorem PixelSoFar.sampleBg (kind : BgKind) (n : BitVec 2) (x y : BitVec 8) :
    PixelSoFar s r (sampleBg kind n x y t) := by
  rw [sampleBg_eq_with_bres]
  exact ⟨congrArg (fun u : State => { u with bres := (Machine.sampleBg kind n x y t).bres }) h.frame, h.rank⟩

/-- The object is added to a unit that was just reset (R223). -/
theorem PixelSoFar.objLayer (hr : r = 0) : PixelSoFar s 1 (objLayer t) := by
  subst hr
  have hreset : t.bu.state = .reset := by
    have hrank := h.rank
    cases hst : t.bu.state <;> simp [hst, BuState.rank] at hrank ⊢
  rw [Machine.objLayer]
  split
  · rw [bldObj_of_reset hreset _ (toNat_setWidth_three_le _)]
    exact h.withBlend t.cres (Nat.le_refl 1)
  · exact h.mono (Nat.zero_le 1)

/-- Background `n` is added to a unit that holds none of its number or above (R224). -/
theorem PixelSoFar.bgLayer (x y : BitVec 8) {n : BitVec 2} (hr : r < 2 + n.toNat) :
    PixelSoFar s (2 + n.toNat) (bgLayer x y n t) := by
  have hsample := h.sampleBg (bgKind t.host.reg.dispcnt.mode n) n x y
  rw [Machine.bgLayer]
  split
  · dsimp only
    split
    · rw [bldBg_eq_execNext, execNext_bgCommand_of_legal (Nat.lt_of_le_of_lt hsample.rank hr) _
        (toNat_setWidth_three_le _)]
      exact hsample.withBlend _ (Nat.le_of_eq (rank_bgAdded n))
    · exact hsample.mono (Nat.le_of_lt hr)
  · exact h.mono (Nat.le_of_lt hr)

end

/-! ### A pixel -/

theorem pixelSoFar_pixelLayers (x y : BitVec 8) (s : State) : PixelSoFar s 5 (pixelLayers x y s) :=
  (((((PixelSoFar.bldReset s x y _).objLayer rfl).bgLayer x y (n := 0) (by decide)).bgLayer x y (n := 1)
    (by decide)).bgLayer x y (n := 2) (by decide)).bgLayer x y (n := 3) (by decide)

theorem pixelSoFar_pixelBackdrop (x y : BitVec 8) (s : State) : PixelSoFar s 6 (pixelBackdrop x y s) := by
  have hlayers := pixelSoFar_pixelLayers x y s
  rw [pixelBackdrop, bldBackdrop_of_takesBackdrop hlayers.rank]
  exact hlayers.withBlend _ (Nat.le_refl 6)

/-- The blend unit's part of a pixel composites what its layers and the backdrop left in the slots. -/
theorem pixelColour_eq_composite (x y : BitVec 8) (s : State) : pixelColour x y s =
    { pixelBackdrop x y s with
      cres := (compositeColor cfg (pixelBackdrop x y s).host.reg (pixelBackdrop x y s).bu
        (pixelBackdrop x y s).wres.blend).setWidth 16
      bu := { (pixelBackdrop x y s).bu with state := .composited } } := by
  rw [pixelColour_eq, bldComposite_of_backdropAdded (pixelBackdrop_state x y s)]

theorem pixelSoFar_pixelColour (x y : BitVec 8) (s : State) : PixelSoFar s 7 (pixelColour x y s) := by
  rw [pixelColour_eq_composite]
  exact (pixelSoFar_pixelBackdrop x y s).withBlend _ (Nat.le_refl 7)

/-- `t` differs from `s` in nothing but what a row writes (R276). -/
def RowFrame (s t : State) : Prop :=
  t = { s with qset := t.qset, ores := t.ores, wres := t.wres, bres := t.bres, cres := t.cres, bu := t.bu,
               acc := t.acc, out := t.out }

/-- What a pixel writes: it leaves `QSET` empty, the blend unit `Composited` and its colour, which has no bit 15, in
`CRES` and its cell of `OUT`, and it advances the accumulators (R275). -/
structure PixelWrites (y x : BitVec 8) (s t : State) : Prop where
  frame : RowFrame s t
  qset : t.qset = 0
  state : t.bu.state = .composited
  cres : t.cres.getLsbD 15 = false
  acc : t.acc = (accStep s).acc
  out : t.out = Memory.write s.out (outIndex y.toNat x.toNat) t.cres

/-- The write of the pixel's colour and the step of the accumulators after it. -/
theorem PixelSoFar.pixelWrites {s t : State} {r : Nat} (h : PixelSoFar s r t) (hstate : t.bu.state = .composited)
    (hcres : t.cres.getLsbD 15 = false) (y x : BitVec 8) :
    PixelWrites y x s (accStep (writeOut y.toNat x.toNat t.cres t)) := by
  rw [h.frame]
  exact ⟨rfl, rfl, hstate, hcres, rfl, rfl⟩

theorem pixelWrites_pixel (y x : BitVec 8) (s : State) : PixelWrites y x s (pixel y x s) := by
  have hcomposite := pixelColour_eq_composite x y s
  have hcres := congrArg (fun u : State => u.cres.getLsbD 15) hcomposite
  exact (pixelSoFar_pixelColour x y s).pixelWrites (congrArg (fun u : State => u.bu.state) hcomposite)
    (hcres.trans (bit15_of_cres _)) y x

end Sys2Proof.Machine
end

section
/-! PROOFS. The row compositor (R275 to R277): what a row leaves, that it is the commands of its pixels, that it depends
on host-owned state and the visibility index alone, and the row of an empty scene. -/

namespace Sys2Proof.Machine

/-! ### What a row writes -/

theorem RowFrame.trans {s t u : State} (h : RowFrame s t) (h' : RowFrame t u) : RowFrame s u := by
  rw [RowFrame, h', h]

theorem RowFrame.host {s t : State} (h : RowFrame s t) : t.host = s.host := by
  rw [h]

/-- `t` is reached from `s` by `ACC_SEED` and `n` pixels. -/
structure RowSoFar (s : State) (n : Nat) (t : State) : Prop where
  frame : RowFrame s t
  acc : AccAfter s n t
  out : Memory.wf s.out → Memory.wf t.out

theorem RowSoFar.accSeed (s : State) : RowSoFar s 0 (accSeed s) := ⟨rfl, .accSeed s, id⟩

theorem RowSoFar.pixel {s t : State} {n : Nat} (h : RowSoFar s n t) (y x : BitVec 8) :
    RowSoFar s (n + 1) (pixel y x t) := by
  have hpixel := pixelWrites_pixel y x t
  refine ⟨h.frame.trans hpixel.frame, fun k => ?acc, fun hs => ?out⟩
  case acc =>
    rw [hpixel.acc]
    exact h.acc.accStep h.frame.host k
  case out =>
    rw [hpixel.out]
    exact Memory.write_wf _ _ _ (h.out hs)

theorem RowSoFar.foldl {s t : State} {n : Nat} (h : RowSoFar s n t) (y : BitVec 8) (l : List (BitVec 8)) :
    RowSoFar s (n + l.length) (l.foldl (fun u x => Machine.pixel y x u) t) := by
  induction l generalizing t n with
  | nil => exact h
  | cons x l ih =>
    rw [List.foldl_cons, List.length_cons, ← Nat.add_assoc, Nat.add_right_comm]
    exact ih (h.pixel y x)

/-- A row ends with the pixel of column 239. -/
theorem renderColumns_eq_pixel (y : BitVec 8) (s : State) :
    ∃ t, RowSoFar s 239 t ∧ renderColumns y s = pixel y 239 t := by
  have hcolumns : columns = (List.range 239).map (BitVec.ofNat 8) ++ [239] := by
    rw [columns, cfg_screenW, List.range_succ, List.map_append]
    rfl
  refine ⟨_, ?_, by rw [renderColumns, hcolumns, List.foldl_append]; rfl⟩
  have h := (RowSoFar.accSeed s).foldl y ((List.range 239).map (BitVec.ofNat 8))
  rwa [List.length_map, List.length_range] at h

theorem renderRow_of_blank {y : BitVec 8} {s : State} (hy : y.toNat < 160) (hmode : s.host.reg.dispcnt.mode ≤ 5)
    (hblank : s.host.reg.dispcnt.forcedBlank = true) : renderRow y s = blankRow y s := by
  rw [renderRow_eq hy hmode, if_pos hblank]

theorem renderRow_of_not_blank {y : BitVec 8} {s : State} (hy : y.toNat < 160) (hmode : s.host.reg.dispcnt.mode ≤ 5)
    (hblank : s.host.reg.dispcnt.forcedBlank = false) : renderRow y s = renderColumns y s := by
  rw [renderRow_eq hy hmode, hblank]
  rfl

/-! ### What every cell of a row meets -/

/-- The work of one column of row `y` keeps `P` and writes a value that meets `Q` to the cell of the column. -/
def PaintsWith (P : State → Prop) (Q : Half → Prop) (y : BitVec 8) (f : State → BitVec 8 → State) : Prop :=
  ∀ t x, P t → P (f t x) ∧ ∃ v, Q v ∧ (f t x).out = Memory.write t.out (outIndex y.toNat x.toNat) v

/-- A cell that was painted, or met `Q` before, meets `Q` afterwards. -/
theorem PaintsWith.foldl {P : State → Prop} {Q : Half → Prop} {y : BitVec 8} {f : State → BitVec 8 → State}
    (hf : PaintsWith P Q y f) (l : List (BitVec 8)) {s : State} (hP : P s) (hs : Memory.wf s.out) (c : Nat)
    (hc : (∃ x ∈ l, x.toNat = c) ∨ Q (outCell s y.toNat c)) : Q (outCell (l.foldl f s) y.toNat c) := by
  induction l generalizing s with
  | nil => simpa using hc
  | cons x l ih =>
    obtain ⟨hP', v, hv, hout⟩ := hf s x hP
    refine ih hP' (hout ▸ Memory.write_wf _ _ v hs) ?_
    have hcell : outCell (f s x) y.toNat c =
        if outIndex y.toNat c = outIndex y.toNat x.toNat then v else outCell s y.toNat c := by
      rw [outCell, hout, Memory.read_write _ _ _ _ hs, outCell]
    rcases hc with ⟨x', hx', hc⟩ | hc
    · rcases List.mem_cons.1 hx' with rfl | hl
      · rw [hcell, if_pos (by rw [hc])]
        exact .inr hv
      · exact .inl ⟨x', hl, hc⟩
    · rw [hcell]
      split
      · exact .inr hv
      · exact .inr hc

/-- The columns of the screen are painted, each of them. -/
theorem PaintsWith.columns {P : State → Prop} {Q : Half → Prop} {y : BitVec 8} {f : State → BitVec 8 → State}
    (hf : PaintsWith P Q y f) {s : State} (hP : P s) (hs : Memory.wf s.out) {c : Nat} (hc : c < 240) :
    Q (outCell (columns.foldl f s) y.toNat c) :=
  hf.foldl Machine.columns hP hs c (.inl (mem_columns hc))

theorem blankRow_eq_with_out (y : BitVec 8) (s : State) : blankRow y s = { s with out := (blankRow y s).out } :=
  foldl_columns_keeps (P := fun t => t = { s with out := t.out }) rfl fun _ _ _ ht =>
    congrArg (writeOut y.toNat _ 0) ht

theorem outCell_blankRow (y : BitVec 8) {s : State} (hs : Memory.wf s.out) {c : Nat} (hc : c < 240) :
    outCell (blankRow y s) y.toNat c = 0 := by
  have hpaint : PaintsWith (fun _ => True) (· = 0) y fun t x => writeOut y.toNat x.toNat 0 t :=
    fun _ _ _ => ⟨trivial, 0, rfl, rfl⟩
  exact hpaint.columns trivial hs hc

/-- Settles O51: a blank row writes 0 to each of its cells, and a row writes no cell of another. (`blankRow` itself is the
model's function.) -/
theorem blankRowIsBlack : Obligations.BlankRow := by
  unfold Obligations.BlankRow
  intro y s hy hmode hblank hs
  have hrow := renderRow_of_blank hy hmode hblank
  refine ⟨renderRow y s, exec_eq_next .., by rw [hrow]; exact blankRow_eq_with_out y s, fun r c _ hc => ?_⟩
  split
  · next hr =>
    rw [hr, hrow]
    exact outCell_blankRow y hs hc
  · next hr => exact outCell_renderRow_ne hs hr hc

/-- A pixel's colour has no bit 15 (R230). -/
theorem paintsWith_pixel_bit15 (y : BitVec 8) :
    PaintsWith (fun _ => True) (fun v => v.getLsbD 15 = false) y fun t x => pixel y x t := by
  intro t x _
  have hpixel := pixelWrites_pixel y x t
  exact ⟨trivial, _, hpixel.cres, hpixel.out⟩

/-- Settles O52: the pixel of column 239 leaves the results, the unit and the accumulators, and no pixel writes more. -/
theorem renderRowWrites : Obligations.RenderRowWrites := by
  unfold Obligations.RenderRowWrites
  intro y s hy hmode hblank hs
  have hrow := renderRow_of_not_blank hy hmode hblank
  obtain ⟨u, hu, hlast⟩ := renderColumns_eq_pixel y s
  obtain ⟨hframe, hacc, -⟩ := hu.pixel y 239
  obtain ⟨-, hqset, hstate, -, -, hout⟩ := pixelWrites_pixel y 239 u
  rw [← hlast, ← hrow] at hframe hacc hqset hstate hout
  refine ⟨renderRow y s, exec_eq_next .., ?frame, hstate, ?acc, ?rows, ?bit15, ?cres⟩
  case frame => rwa [RowFrame, hqset] at hframe
  case acc => exact hacc
  case rows => exact fun r c _ hc hr => outCell_renderRow_ne hs hr hc
  case bit15 =>
    intro c hc
    rw [hrow]
    exact (paintsWith_pixel_bit15 y).columns (s := accSeed s) trivial hs hc
  case cres =>
    rw [outCell, hout, Memory.read_write _ _ _ _ (hu.out hs)]
    exact (if_pos rfl).symm

/-! ### A row is its commands (R277) -/

/-- The commands of one background, as the host issues them, are the body of the background loop (R275). -/
theorem hostBg_eq {n : BitVec 2} {add : Colour → BitVec 3 → Instr} (hadd : ∀ c p, add c p = bgCommand n c p)
    {mode : BitVec 3} {x y : BitVec 8} {s : State} (hmode : s.host.reg.dispcnt.mode = mode) :
    hostBg n (sampleCommand mode n x y) add s = .next (bgLayer x y n s) := by
  have hsample {i : Instr} {kind : BgKind} (hkind : bgKind mode n = kind) (hne : kind ≠ .none)
      (hi : execNext i s = sampleBg kind n x y s) : hostBg n (some i) add s = .next (bgLayer x y n s) := by
    have hactive : bgActive s n = (bitOf s.host.reg.dispcnt.bgEnable n && bitOf s.wres.bg n) := by
      rw [bgActive, hmode, hkind, bne_iff_ne.2 hne, Bool.true_and]
    rw [hostBg, bgLayer, hactive, hmode, hkind, exec_eq_next, bindNext, hi]
    dsimp only
    simp only [hadd, exec_eq_next, bldBg_eq_execNext]
    split_ifs <;> rfl
  cases hkind : bgKind mode n with
  | none => simp [sampleCommand, hkind, hostBg, bgLayer, bgActive, hmode]
  | tile | affine | bitmap3 | bitmap4 | bitmap5 =>
    rw [sampleCommand, hkind]
    exact hsample hkind nofun rfl

@[simp] theorem bindNext_next (s : State) (f : State → Outcome) : bindNext (.next s) f = f s := rfl

theorem next_objLayer (s : State) : (if s.ores.found && s.wres.obj then
    (.next (bldObj s.ores.color (s.ores.prio.setWidth 3) s.ores.semi s) : Outcome) else .next s) =
      .next (objLayer s) := by
  rw [objLayer]
  split <;> rfl

theorem PixelSoFar.hostBg_eq {s t : State} {r : Nat} (h : PixelSoFar s r t) (x y : BitVec 8) (n : BitVec 2)
    (add : Colour → BitVec 3 → Instr) (hadd : ∀ c p, add c p = bgCommand n c p) :
    hostBg n (sampleCommand s.host.reg.dispcnt.mode n x y) add t = .next (Machine.bgLayer x y n t) :=
  Machine.hostBg_eq hadd (by rw [h.host])

/-- The commands of a pixel, as the host issues them, are the pixel. -/
theorem hostPixel_eq (y x : BitVec 8) (s : State) : hostPixel y x s = .next (pixel y x s) := by
  have hobj := (PixelSoFar.bldReset s x y (smpObj x y s).ores.objwin).objLayer rfl
  have hbg0 := hobj.bgLayer x y (n := 0) (by decide)
  have hbg1 := hbg0.bgLayer x y (n := 1) (by decide)
  have hbg2 := hbg1.bgLayer x y (n := 2) (by decide)
  simp only [hostPixel, exec_eq_next, bindNext_next, execNext, next_objLayer]
  rw [hobj.hostBg_eq x y 0 .bldBg0 fun _ _ => rfl, bindNext_next, hbg0.hostBg_eq x y 1 .bldBg1 fun _ _ => rfl,
    bindNext_next, hbg1.hostBg_eq x y 2 .bldBg2 fun _ _ => rfl, bindNext_next,
    hbg2.hostBg_eq x y 3 .bldBg3 fun _ _ => rfl, bindNext_next]
  rfl

theorem hostColumns_eq (y : BitVec 8) (l : List (BitVec 8)) (s : State) :
    hostColumns y l s = .next (l.foldl (fun t x => pixel y x t) s) := by
  induction l generalizing s with
  | nil => rfl
  | cons x l ih => rw [hostColumns, hostPixel_eq, bindNext, ih, List.foldl_cons]

theorem hostRow_eq (y : BitVec 8) (s : State) : hostRow y s = .next (renderColumns y s) := by
  rw [hostRow, exec_eq_next, bindNext, hostColumns_eq]
  rfl

/-- Settles O53: the host's commands of each pixel are the pixel; the table is evaluated. -/
theorem renderRowIsItsCommands : Obligations.RenderRowIsItsCommands := by
  unfold Obligations.RenderRowIsItsCommands
  refine ⟨fun y s hy hmode hblank => ?_, fun x y => rfl⟩
  rw [exec_eq_next, hostRow_eq, execNext, renderRow_of_not_blank hy hmode hblank]

/-! ### What a row depends on -/

/-- Settles O54: such states agree in all that a row reads. -/
theorem rowDependsOnInputsOnly : Obligations.RowDependsOnInputsOnly := by
  unfold Obligations.RowDependsOnInputsOnly
  intro y s s' hy hmode hs hs' hhost hcol hrow hobjc
  have hsame : SameRow s s' := ⟨hhost, hcol, hrow, hobjc⟩
  exact ⟨_, _, exec_eq_next .., exec_eq_next .., fun c hc => hsame.outCell_renderRow hy hmode hs hs' hc⟩

/-- A row that is not among those rendered keeps its cells. -/
theorem outCell_foldl_renderRow_of_not_mem {s : State} (hs : MemoryInv s) {rows : List (BitVec 8)} {w : BitVec 8}
    (hw : w ∉ rows) {c : Nat} (hc : c < 240) :
    outCell (rows.foldl (fun t y => renderRow y t) s) w.toNat c = outCell s w.toNat c := by
  induction rows generalizing s with
  | nil => rfl
  | cons y rows ih =>
    obtain ⟨hy, hrest⟩ := not_or.1 (mt List.mem_cons.2 hw)
    refine (ih (MemoryInv.execNext (.renderRow y) s hs) hrest).trans ?_
    exact outCell_renderRow_ne hs.out.1 (fun e => hy (BitVec.eq_of_toNat_eq e)) hc

/-- Only which rows are rendered matters, not in which order or how often. -/
theorem outCell_foldl_renderRow_congr {s : State} (hmode : s.host.reg.dispcnt.mode ≤ 5) (hs : MemoryInv s)
    {rows rows' : List (BitVec 8)} (h : ∀ w, w ∈ rows ↔ w ∈ rows') {r c : Nat} (hr : r < 160) (hc : c < 240) :
    outCell (rows.foldl (fun t y => renderRow y t) s) r c = outCell (rows'.foldl (fun t y => renderRow y t) s) r c := by
  obtain ⟨w, rfl⟩ : ∃ w : BitVec 8, w.toNat = r := ⟨BitVec.ofNat 8 r, by rw [BitVec.toNat_ofNat]; omega⟩
  by_cases hw : w ∈ rows
  · rw [outCell_foldl_renderRow hmode hs.out.1 ⟨rfl, rfl, rfl, rfl⟩ hs rows hr hc (.inl hw),
      outCell_foldl_renderRow hmode hs.out.1 ⟨rfl, rfl, rfl, rfl⟩ hs rows' hr hc (.inl ((h w).1 hw))]
  · rw [outCell_foldl_renderRow_of_not_mem hs hw hc, outCell_foldl_renderRow_of_not_mem hs (mt (h w).2 hw) hc]

/-- Settles O55: both orders render the same rows, and two equal rows are the one row. -/
theorem rowsInAnyOrder : Obligations.RowsInAnyOrder := by
  unfold Obligations.RowsInAnyOrder
  intro y z s _ _ hmode hs
  refine ⟨_, _, execAll_eq_next .., execAll_eq_next .., fun r c hr hc => ?order,
    fun hyz => ⟨_, exec_eq_next .., fun r c hr hc => ?twice⟩⟩
  case order =>
    exact outCell_foldl_renderRow_congr hmode hs (rows := [y, z]) (rows' := [z, y]) (by simp [or_comm]) hr hc
  case twice =>
    exact outCell_foldl_renderRow_congr hmode hs (rows := [y, z]) (rows' := [y]) (by simp [hyz]) hr hc

/-! ### An empty scene -/

/-- A top layer outside target A is shown as it is (R230). -/
theorem compositeColor_of_not_targetA {reg : Reg} {bu : BlendUnit} (hA : bu.slot0.tgtA = false) (en : Bool) :
    compositeColor cfg reg bu en = bu.slot0.color := by
  have hpair : ¬TargetPair bu := fun ⟨h, _⟩ => by simp [hA] at h
  refine compositeColor_of_selectsNone (fun ⟨_, h⟩ => ?_) (fun ⟨_, _, _, h⟩ => ?_) (fun ⟨_, _, _, h⟩ => ?_)
  · exact h.elim (fun hforced => hpair hforced.2) fun hmode => hpair hmode.2
  · simp [hA] at h
  · simp [hA] at h

/-- Where no slot is drawn, no sprite is found (R160). -/
theorem sampleObject_of_hidden {s : State} (hinv : VisibilityInv s)
    (hhidden : ∀ n : SlotNo, (Tab.get s.objc n).texW = 0) (x y : Nat) : sampleObject s x y = noSprite := by
  have hempty : visibleAt s x y = 0#128 := slotSet_ext _ _ fun o => by
    rw [bitOf_zero, Bool.eq_false_iff, ne_eq, bitOf_visibleAt, hinv.covers_iff]
    exact fun ⟨_, _, hdrawn, _⟩ => hdrawn (hhidden o)
  rw [sampleObject, hempty, cfg_nObj, scan, (lowest_eq_none _).2 rfl]

theorem objLayer_of_not_found {s : State} (h : s.ores.found = false) : objLayer s = s := by
  rw [objLayer, h]
  rfl

theorem bgLayer_of_disabled {s : State} (h : s.host.reg.dispcnt.bgEnable = 0) (x y : BitVec 8) (n : BitVec 2) :
    bgLayer x y n s = s := by
  have hactive : bgActive s n = false := by simp [bgActive, h, bitOf]
  rw [bgLayer, hactive]
  rfl

/-- No background is enabled, no slot is drawn, and the backdrop is no target A. -/
structure EmptyScene (s : State) : Prop where
  visibility : VisibilityInv s
  bgs : s.host.reg.dispcnt.bgEnable = 0
  slots : ∀ n : SlotNo, (Tab.get s.objc n).texW = 0
  target : s.host.reg.bldcnt.targetA.getLsbD 5 = false

/-- Nothing is added to the blend unit of an empty scene before the backdrop. -/
theorem EmptyScene.pixelLayers {s : State} (h : EmptyScene s) (x y : BitVec 8) : pixelLayers x y s =
    bldReset (winEval x y (smpObj x y s).ores.objwin (smpObj x y s)) := by
  have hfound : (sampleObject s x.toNat y.toNat).found = false := by
    rw [sampleObject_of_hidden h.visibility h.slots]
    rfl
  have hbg := bgLayer_of_disabled (s := bldReset (winEval x y (smpObj x y s).ores.objwin (smpObj x y s))) h.bgs x y
  rw [Machine.pixelLayers, objLayer_of_not_found hfound, hbg, hbg, hbg, hbg]

/-- The backdrop of an empty scene takes slot 0, and its colour is the pixel's. -/
theorem EmptyScene.pixelColour_cres {s : State} (h : EmptyScene s) (x y : BitVec 8) :
    (pixelColour x y s).cres = (backdropColor s.host).setWidth 16 := by
  have hslot : (pixelBackdrop x y s).bu.slot0 = layerOf s.host.reg.bldcnt 5 (backdropColor s.host) 4 false := by
    rw [pixelBackdrop, h.pixelLayers, bldBackdrop_of_takesBackdrop (TakesBackdrop.bldReset _),
      offerBackdrop_of_unset rfl]
    rfl
  have htarget : (pixelBackdrop x y s).bu.slot0.tgtA = false := by
    rw [hslot]
    exact h.target
  rw [pixelColour_eq, bldComposite_cres (pixelBackdrop_state x y s), compositeColor_of_not_targetA htarget, hslot]
  rfl

theorem EmptyScene.of_rowFrame {s t : State} (h : EmptyScene s) (ht : RowFrame s t) : EmptyScene t := by
  rw [ht]
  exact ⟨h.visibility.congr rfl rfl rfl, h.bgs, h.slots, h.target⟩

theorem EmptyScene.paintsWith_pixel {s : State} (h : EmptyScene s) (y : BitVec 8) :
    PaintsWith (RowFrame s) (· = (backdropColor s.host).setWidth 16) y fun t x => pixel y x t := by
  intro t x ht
  refine ⟨ht.trans (pixelWrites_pixel y x t).frame, _, ?_, pixel_out y x t⟩
  rw [(h.of_rowFrame ht).pixelColour_cres, ht.host]

/-- Settles O57: the backdrop is the one layer of every pixel, and no formula applies to it. -/
theorem backdropRow : Obligations.BackdropRow := by
  unfold Obligations.BackdropRow
  intro y s hy hmode hblank hs hinv hbgs hslots htarget
  have hempty : EmptyScene s := ⟨hinv, hbgs, hslots, htarget⟩
  refine ⟨renderRow y s, exec_eq_next .., fun c hc => ?_⟩
  rw [renderRow_of_not_blank hy hmode hblank]
  exact (hempty.paintsWith_pixel y).columns (s := accSeed s) rfl hs hc

end Sys2Proof.Machine
end

section
/-! PROOFS. Faults (R290 to R299): which bits a command raises, and what a step does to `FAULT` and `FAULT_CMD`. -/

namespace Sys2Proof.Machine

/-! ### The bits of a condition (R55) -/

theorem getLsbD_bitIf_twoPow (c : Bool) {k : Nat} (hk : k < 5) (n : Nat) :
    (bitIf c (BitVec.twoPow 5 k)).getLsbD n = true ↔ n = k ∧ c = true := by
  cases c <;> simp [hk, eq_comm]

theorem getLsbD_badCommandBit (n : Nat) : badCommandBit.getLsbD n = true ↔ n = 0 :=
  (getLsbD_bitIf_twoPow true (k := 0) (by decide) n).trans (and_iff_left rfl)

theorem getLsbD_orderFault (legal : Bool) (n : Nat) : (orderFault legal).getLsbD n = true ↔ n = 1 ∧ legal ≠ true :=
  (getLsbD_bitIf_twoPow (!legal) (k := 1) (by decide) n).trans (by simp)

theorem getLsbD_priorityFault (prio : BitVec 3) (n : Nat) :
    (priorityFault prio).getLsbD n = true ↔ n = 2 ∧ 3 < prio.toNat :=
  (getLsbD_bitIf_twoPow _ (k := 2) (by decide) n).trans (by simp)

theorem getLsbD_modeFault (s : State) (n : Nat) :
    (modeFault s).getLsbD n = true ↔ n = 3 ∧ 5 < s.host.reg.dispcnt.mode.toNat :=
  (getLsbD_bitIf_twoPow _ (k := 3) (by decide) n).trans (by simp)

theorem getLsbD_rowFault (y : BitVec 8) (n : Nat) : (rowFault y).getLsbD n = true ↔ n = 4 ∧ 160 ≤ y.toNat :=
  (getLsbD_bitIf_twoPow _ (k := 4) (by decide) n).trans (by simp)

/-! ### The bits of a command (R291 to R296) -/

/-- The states from which `BLD_OBJ`, `BLD_BACKDROP` and `BLD_COMPOSITE` are legal, by rank (R223, R229, R230). -/
theorem legalIn_bldObj (st : BuState) (color : Colour) (prio : BitVec 3) (semi : Bool) :
    LegalIn st (.bldObj color prio semi) ↔ BuState.rank st = 0 := by
  cases st <;> simp [LegalIn, BuState.rank]

theorem legalIn_bldBackdrop (st : BuState) (color : Colour) :
    LegalIn st (.bldBackdrop color) ↔ BuState.rank st ≤ 5 := by
  cases st <;> simp [LegalIn, BuState.rank]

theorem legalIn_bldComposite (st : BuState) (en : Bool) : LegalIn st (.bldComposite en) ↔ BuState.rank st = 6 := by
  cases st <;> simp [LegalIn, BuState.rank]

/-- The bits of `FAULT` that a command raises in a state. -/
def faultBits (s : State) : Instr → FaultSet
  | .bldObj _ prio _ => priorityFault prio ||| orderFault (BuState.rank s.bu.state == 0)
  | .bldBg0 _ prio => priorityFault prio ||| orderFault (decide (BuState.rank s.bu.state < 2))
  | .bldBg1 _ prio => priorityFault prio ||| orderFault (decide (BuState.rank s.bu.state < 3))
  | .bldBg2 _ prio => priorityFault prio ||| orderFault (decide (BuState.rank s.bu.state < 4))
  | .bldBg3 _ prio => priorityFault prio ||| orderFault (decide (BuState.rank s.bu.state < 5))
  | .bldBackdrop _ => orderFault (decide (BuState.rank s.bu.state ≤ 5))
  | .bldComposite _ => orderFault (BuState.rank s.bu.state == 6)
  | .renderRow y => rowFault y ||| modeFault s
  | .startFrame | .shouldFlush => modeFault s
  | .markDrawn _ | .markHidden _ | .query _ _ | .qpop | .smpObj _ _ | .smpTile _ _ _ | .smpAff _ | .smpBmp3 _ _
  | .smpBmp4 _ _ | .smpBmp5 _ _ | .winEval _ _ _ | .bldReset | .accSeed | .accStep => 0#5

/-- A command that adds a layer has the conditions of its order and of its priority (R294). -/
theorem getLsbD_addFault {i : Instr} {prio : BitVec 3} (hprio : prioOperand i = some prio)
    {s : State} {legal : Bool} (hlegal : LegalIn s.bu.state i ↔ legal = true) (n : Nat) :
    (priorityFault prio ||| orderFault legal).getLsbD n = true ↔ FaultApplies s i n := by
  have hmode : ¬NeedsMode i := by rintro (rfl | rfl | ⟨y, rfl⟩) <;> cases hprio
  have hrow (y : BitVec 8) : i ≠ .renderRow y := fun h => hmode (.inr (.inr ⟨y, h⟩))
  simp [FaultApplies, hlegal, hprio, hmode, hrow, getLsbD_priorityFault, getLsbD_orderFault, or_comm]

theorem getLsbD_faultBits (i : Instr) (s : State) (n : Nat) :
    (faultBits s i).getLsbD n = true ↔ FaultApplies s i n := by
  cases i with
  | bldObj c p m => exact getLsbD_addFault rfl ((legalIn_bldObj ..).trans beq_iff_eq.symm) n
  | bldBg0 c p => exact getLsbD_addFault rfl ((legalIn_bgCommand _ 0 c p).trans decide_eq_true_iff.symm) n
  | bldBg1 c p => exact getLsbD_addFault rfl ((legalIn_bgCommand _ 1 c p).trans decide_eq_true_iff.symm) n
  | bldBg2 c p => exact getLsbD_addFault rfl ((legalIn_bgCommand _ 2 c p).trans decide_eq_true_iff.symm) n
  | bldBg3 c p => exact getLsbD_addFault rfl ((legalIn_bgCommand _ 3 c p).trans decide_eq_true_iff.symm) n
  | bldBackdrop c =>
    simp [faultBits, FaultApplies, legalIn_bldBackdrop, getLsbD_orderFault, prioOperand, NeedsMode]
  | bldComposite en =>
    simp [faultBits, FaultApplies, legalIn_bldComposite, getLsbD_orderFault, prioOperand, NeedsMode]
  | renderRow y =>
    simp [faultBits, FaultApplies, LegalIn, getLsbD_rowFault, getLsbD_modeFault, prioOperand, NeedsMode, or_comm]
  | startFrame | shouldFlush =>
    simp [faultBits, FaultApplies, LegalIn, getLsbD_modeFault, prioOperand, NeedsMode]
  | _ => simp [faultBits, FaultApplies, LegalIn, prioOperand, NeedsMode]

theorem faultBits_eq_zero (i : Instr) (s : State) : faultBits s i = 0#5 ↔ ∀ n, ¬FaultApplies s i n := by
  simp only [← getLsbD_faultBits]
  refine ⟨fun h n => by simp [h], fun h => BitVec.eq_of_getLsbD_eq fun n _ => ?_⟩
  simpa using h n

/-! ### What a command does to the fault state (R293) -/

/-- What the word `w`, whose conditions are `bits`, makes of `s`: with none it leaves the fault state alone, and with
any it takes the fault and does nothing else. -/
structure FaultStep (bits : FaultSet) (w : Word) (s t : State) : Prop where
  fault : t.fault = s.fault ||| bits
  cmd : bits = 0#5 → t.faultCmd = s.faultCmd
  raised : bits ≠ 0#5 → t = raise bits w s

theorem FaultStep.completes {w : Word} {s t : State} (hfault : t.fault = s.fault) (hcmd : t.faultCmd = s.faultCmd) :
    FaultStep 0#5 w s t :=
  ⟨by rw [hfault, BitVec.or_zero], fun _ => hcmd, fun h => absurd rfl h⟩

theorem FaultStep.faults {bits : FaultSet} (hbits : bits ≠ 0#5) (w : Word) (s : State) :
    FaultStep bits w s (raise bits w s) :=
  ⟨rfl, fun h => absurd h hbits, fun _ => rfl⟩

theorem FaultStep.guarded {bits : FaultSet} {i : Instr} {s s' : State} (hfault : s'.fault = s.fault)
    (hcmd : s'.faultCmd = s.faultCmd) : FaultStep bits (encode i) s (guarded bits i s s') :=
  guarded_keeps (fun hbits => hbits ▸ .completes hfault hcmd) fun hbits => .faults hbits _ s

/-- The commands of a row's pixels come in the order of R275, so none of them faults. -/
theorem FaultStep.renderRow (y : BitVec 8) (s : State) :
    FaultStep (faultBits s (.renderRow y)) (encode (.renderRow y)) s (renderRow y s) := by
  have hblank := blankRow_eq_with_out y s
  have hcolumns : RowFrame s (renderColumns y s) := ((RowSoFar.accSeed s).foldl y columns).frame
  refine .guarded ?_ ?_ <;> split
  · rw [hblank]
  · rw [hcolumns]
  · rw [hblank]
  · rw [hcolumns]

/-- A command that cannot meet a fault condition writes no fault state. -/
theorem FaultStep.of_cannotFault {i : Instr} {s : State} (hi : canFault i = false) (hbits : faultBits s i = 0#5) :
    FaultStep (faultBits s i) (encode i) s (execNext i s) := by
  obtain ⟨hfault, hcmd⟩ := not_or.1 (mt (WritesOnly.execNext i s).fault (Bool.not_eq_true _ ▸ hi))
  rw [hbits]
  exact .completes (not_not.1 hfault) (not_not.1 hcmd)

theorem FaultStep.execNext (i : Instr) (s : State) : FaultStep (faultBits s i) (encode i) s (execNext i s) := by
  cases i with
  | bldObj | bldBg0 | bldBg1 | bldBg2 | bldBg3 | bldBackdrop | bldComposite | startFrame | shouldFlush =>
    exact .guarded rfl rfl
  | renderRow y => exact .renderRow y s
  | _ => exact .of_cannotFault rfl rfl

/-! ### Illegal words (R104, R290) -/

theorem FaultStep.badCommand (w : Word) (s : State) : FaultStep badCommandBit w s (badCommand w s) :=
  .faults (by decide) w s

theorem runCommand_of_illegal {w : Word} (hw : ∀ i, decode w ≠ .ok i) (s : State) :
    runCommand w s = .next (badCommand w s) := by
  rw [runCommand]
  cases hd : decode w with
  | ok i => exact absurd hd (hw i)
  | error e => rfl

/-- Settles O8: a word that matches no row does not decode, so the command port raises `BAD_COMMAND`. -/
theorem illegalWordRaisesBadCommand : Obligations.IllegalWordRaisesBadCommand := by
  unfold Obligations.IllegalWordRaisesBadCommand
  intro s w rest hin hrows
  have hillegal (i : Instr) : decode w ≠ .ok i := fun hi =>
    have ⟨r, hr, hmatch, _⟩ := decode_eq_ok hi
    hrows r hr hmatch
  refine ⟨badCommand w { s with inbox := rest }, ?_, rfl, fun n => ?_, rfl⟩
  · rw [step, hin]
    exact runCommand_of_illegal hillegal _
  · rw [(FaultStep.badCommand w _).fault, BitVec.getLsbD_or, Bool.eq_iff_iff]
    simp [getLsbD_badCommandBit]

/-- Settles O21: a command gains the bits of its conditions, and with any of them only takes the fault. -/
theorem faultsArePrecise : Obligations.FaultsArePrecise := by
  unfold Obligations.FaultsArePrecise
  refine ⟨fun i s => ?_, fun w s hw => ?_⟩
  · obtain ⟨hfault, hcmd, hraised⟩ := FaultStep.execNext i s
    refine ⟨execNext i s, exec_eq_next i s, fun n => ?_, fun hnone => hcmd ((faultBits_eq_zero i s).2 hnone),
      fun ⟨n, hn⟩ => ?_, fun w => encodeDecode w i⟩
    · rw [hfault, BitVec.getLsbD_or, Bool.or_eq_true, getLsbD_faultBits]
    · rw [hraised fun hzero => (faultBits_eq_zero i s).1 hzero n hn]
      rfl
  · refine ⟨badCommand w s, runCommand_of_illegal hw s, fun n => ?_, rfl⟩
    rw [(FaultStep.badCommand w s).fault, BitVec.getLsbD_or, Bool.or_eq_true, getLsbD_badCommandBit]

/-! ### What a step does to the fault state (R299) -/

/-- A step that is no reset takes a fault, and then of a command word, or leaves the fault state alone. -/
theorem FaultStep.step {s t : State} {x : HostTxn} {rest : List HostTxn} (hin : s.inbox = x :: rest)
    (hx : isReset x = false) (h : step s = .next t) :
    ∃ bits w, (bits ≠ 0#5 → x = .command w) ∧ FaultStep bits w { s with inbox := rest } t := by
  rcases step_cases h with ⟨hnil, -⟩ | ⟨x', rest', hin', hcase⟩
  · exact absurd (hnil.symm.trans hin) (List.cons_ne_nil x rest).symm
  obtain ⟨rfl, rfl⟩ : x = x' ∧ rest = rest' := by simpa [hin] using hin'
  have hport (host inbox dirty readData) : ∃ bits w, (bits ≠ 0#5 → x = .command w) ∧ FaultStep bits w
      { s with inbox := rest } { s with host := host, inbox := inbox, dirty := dirty, readData := readData } :=
    ⟨0#5, 0, fun h => absurd rfl h, .completes rfl rfl⟩
  rcases hcase with ⟨w, i, rfl, hw, rfl⟩ | ⟨w, e, rfl, -, rfl⟩ | ⟨st, -, -, rfl⟩ | ⟨m, -, rfl⟩ | ⟨v, rfl⟩ | ⟨m, rfl, -⟩
  · obtain ⟨-, -, -, -, rfl⟩ := decode_eq_ok hw
    exact ⟨_, _, fun _ => rfl, .execNext i _⟩
  · exact ⟨_, _, fun _ => rfl, .badCommand w _⟩
  · exact hport ..
  · exact hport ..
  · exact hport ..
  · cases hx

/-- Settles O22: taking a fault only adds bits, and writes `FAULT_CMD` only if there was none. -/
theorem faultsAreSticky : Obligations.FaultsAreSticky := by
  unfold Obligations.FaultsAreSticky
  intro s t x rest hin hx h
  obtain ⟨bits, w, hw, hfault, hcmd, hraised⟩ := FaultStep.step hin hx h
  refine ⟨fun n hn => by rw [hfault, BitVec.getLsbD_or, hn, Bool.true_or], ?_⟩
  by_cases hbits : bits = 0#5
  · rw [hbits, BitVec.or_zero] at hfault
    exact ⟨fun _ => hcmd hbits, .inl hfault⟩
  · rw [hraised hbits]
    exact ⟨fun hs => if_neg hs, .inr ⟨w, hw hbits, fun hs => if_pos hs⟩⟩

end Sys2Proof.Machine
end

section
/-! PROOFS. When a step stops (R70, R71, R73, R78, R79): it takes a malformed transaction, and which are malformed. -/

namespace Sys2Proof.Machine

/-! ### A step stops on a malformed transaction -/

/-- A malformed transaction stops the machine with its fault, and any other has a next state. -/
theorem runTxn_cases (x : HostTxn) (s : State) : (∃ m, x.malformed = some m ∧ runTxn x s = .fault (faultOf m)) ∨
    (x.malformed = none ∧ ∃ t, runTxn x s = .next t) := by
  cases x with
  | command w =>
    refine .inr ⟨rfl, ?_⟩
    rw [runTxn, runCommand]
    split
    · exact ⟨_, exec_eq_next ..⟩
    · exact ⟨_, rfl⟩
  | store st =>
    rw [runTxn, hostStore, HostTxn.malformed]
    cases st.malformed with
    | some m => exact .inl ⟨m, rfl, rfl⟩
    | none => exact .inr ⟨rfl, _, rfl⟩
  | readOut row col =>
    by_cases hcell : row < cfg.screenH ∧ col < cfg.screenW
    · exact .inr ⟨if_pos hcell, _, if_pos hcell⟩
    · exact .inl ⟨.outsideOut, if_neg hcell, if_neg hcell⟩
  | dirtySet | readResult | reset => exact .inr ⟨rfl, _, rfl⟩

/-- The next transaction of the host is malformed, for the reason `m`. -/
def NextMalformed (s : State) (m : Malformed) : Prop := ∃ x rest, s.inbox = x :: rest ∧ x.malformed = some m

theorem step_of_nextMalformed {s : State} {m : Malformed} (h : NextMalformed s m) : step s = .fault (faultOf m) := by
  obtain ⟨x, rest, hin, hx⟩ := h
  rw [step, hin]
  rcases runTxn_cases x { s with inbox := rest } with ⟨m', hx', hrun⟩ | ⟨hx', -⟩
  · obtain rfl : m' = m := Option.some.inj (hx'.symm.trans hx)
    exact hrun
  · simp [hx] at hx'

theorem step_of_not_nextMalformed {s : State} (h : ¬∃ m, NextMalformed s m) : ∃ t, step s = .next t := by
  rw [step]
  cases hin : s.inbox with
  | nil => exact ⟨_, rfl⟩
  | cons x rest =>
    rcases runTxn_cases x { s with inbox := rest } with ⟨m, hx, -⟩ | ⟨-, hnext⟩
    · exact absurd ⟨m, x, rest, hin, hx⟩ h
    · exact hnext

theorem faultOf_injective : Function.Injective faultOf := by
  intro m m' h
  cases m <;> cases m' <;> trivial

theorem step_eq_fault_iff (s : State) (m : Malformed) : step s = .fault (faultOf m) ↔ NextMalformed s m := by
  refine ⟨fun h => ?_, step_of_nextMalformed⟩
  by_cases hstop : ∃ m', NextMalformed s m'
  · obtain ⟨m', hm'⟩ := hstop
    have hfault : faultOf m' = faultOf m := Host.Outcome.fault.inj ((step_of_nextMalformed hm').symm.trans h)
    rwa [faultOf_injective hfault] at hm'
  · obtain ⟨t, ht⟩ := step_of_not_nextMalformed hstop
    simp [ht] at h

theorem step_ne_next_iff (s : State) : (∀ t, step s ≠ .next t) ↔ ∃ m, NextMalformed s m := by
  refine ⟨fun h => by_contra fun hgo => ?_, fun ⟨m, hm⟩ t => by simp [step_of_nextMalformed hm]⟩
  obtain ⟨t, ht⟩ := step_of_not_nextMalformed hgo
  exact h t ht

/-! ### Which transactions are malformed -/

theorem outsideSpace_eq_some_iff {size a : Nat} {m : Malformed} :
    (if size ≤ a then some Malformed.outsideSpace else none) = some m ↔ m = .outsideSpace ∧ size ≤ a := by
  split <;> simp [*, eq_comm]

theorem checkHalf_eq_some_iff {size a : Nat} {m : Malformed} : checkHalf size a = some m ↔
    (m = .outsideSpace ∧ size ≤ a) ∨ (m = .misaligned ∧ a < size ∧ a % 2 = 1) := by
  rw [checkHalf]
  split
  · next h => simp [h, Nat.not_lt.2 h, eq_comm]
  · next h => split <;> simp [*, Nat.not_le.1 h, eq_comm (b := m)]

/-- A store is malformed for its address alone, and a read of `OUT` for its cell. -/
theorem nextMalformed_iff (s : State) (m : Malformed) : NextMalformed s m ↔
    (∃ st, (∃ rest, s.inbox = .store st :: rest) ∧ st.malformed = some m) ∨
      m = .outsideOut ∧ ∃ row col rest, s.inbox = .readOut row col :: rest ∧ (160 ≤ row ∨ 240 ≤ col) := by
  constructor
  · rintro ⟨x, rest, hin, hx⟩
    cases x with
    | store st => exact .inl ⟨st, ⟨rest, hin⟩, hx⟩
    | readOut row col =>
      rw [HostTxn.malformed] at hx
      split at hx
      · cases hx
      · next hcell =>
        cases hx
        refine .inr ⟨rfl, row, col, rest, hin, ?_⟩
        rw [cfg_screenH, cfg_screenW] at hcell
        omega
    | command | dirtySet | readResult | reset => cases hx
  · rintro (⟨st, ⟨rest, hin⟩, hst⟩ | ⟨rfl, row, col, rest, hin, hcell⟩)
    · exact ⟨_, rest, hin, hst⟩
    · exact ⟨_, rest, hin, if_neg (by rw [cfg_screenH, cfg_screenW]; omega)⟩

theorem malformed_eq_outsideSpace_iff (st : HostStore) : st.malformed = some .outsideSpace ↔
    (∃ a v, st = .vramByte a v ∧ 0x18000 ≤ a) ∨ (∃ a v, st = .vramHalf a v ∧ 0x18000 ≤ a) ∨
      (∃ a v, st = .palByte a v ∧ 0x400 ≤ a) ∨ (∃ a v, st = .palHalf a v ∧ 0x400 ≤ a) ∨
      ∃ a v, st = .oamHalf a v ∧ 0x400 ≤ a := by
  cases st <;> simp only [HostStore.malformed, outsideSpace_eq_some_iff, checkHalf_eq_some_iff] <;>
    simp [palSize, oamSize]

theorem malformed_eq_misaligned_iff (st : HostStore) : st.malformed = some .misaligned ↔
    (∃ a v, st = .vramHalf a v ∧ a < 0x18000 ∧ a % 2 = 1) ∨ (∃ a v, st = .palHalf a v ∧ a < 0x400 ∧ a % 2 = 1) ∨
      ∃ a v, st = .oamHalf a v ∧ a < 0x400 ∧ a % 2 = 1 := by
  cases st <;> simp only [HostStore.malformed, outsideSpace_eq_some_iff, checkHalf_eq_some_iff] <;>
    simp [palSize, oamSize]

theorem malformed_ne_outsideOut (st : HostStore) : st.malformed ≠ some .outsideOut := by
  cases st <;> simp only [HostStore.malformed, ne_eq, outsideSpace_eq_some_iff, checkHalf_eq_some_iff] <;> simp

/-- A store with some property, of a kind `f`, by the address and the value stored. -/
theorem exists_store_iff {n : Nat} {P : HostStore → Prop} {f : Nat → BitVec n → HostStore} {q : Nat → Prop} :
    (∃ st, P st ∧ ∃ a v, st = f a v ∧ q a) ↔ ∃ a v, P (f a v) ∧ q a := by
  constructor
  · rintro ⟨_, hP, a, v, rfl, hq⟩
    exact ⟨a, v, hP, hq⟩
  · rintro ⟨a, v, hP, hq⟩
    exact ⟨_, hP, a, v, rfl, hq⟩

/-- Settles O11: a step stops iff it takes a malformed transaction, whose kinds are those of the statement. -/
theorem stopsOnMalformedOnly : Obligations.StopsOnMalformedOnly := by
  unfold Obligations.StopsOnMalformedOnly
  intro s stores outside odd noCell
  have houtside : NextMalformed s .outsideSpace ↔ outside := by
    simp only [nextMalformed_iff, malformed_eq_outsideSpace_iff, and_or_left, exists_or, exists_store_iff,
      reduceCtorEq, false_and, or_false, outside, stores]
  have hodd : NextMalformed s .misaligned ↔ odd := by
    simp only [nextMalformed_iff, malformed_eq_misaligned_iff, and_or_left, exists_or, exists_store_iff,
      reduceCtorEq, false_and, or_false, odd, stores]
  have hcell : NextMalformed s .outsideOut ↔ noCell := by
    simp only [nextMalformed_iff, malformed_ne_outsideOut, and_false, exists_false, false_or, true_and, noCell]
  have hany : (∃ m, NextMalformed s m) ↔ outside ∨ odd ∨ noCell := by
    rw [← houtside, ← hodd, ← hcell]
    constructor
    · rintro ⟨m, hm⟩
      cases m with
      | outsideSpace => exact .inl hm
      | misaligned => exact .inr (.inl hm)
      | outsideOut => exact .inr (.inr hm)
    · rintro (hm | hm | hm) <;> exact ⟨_, hm⟩
  exact ⟨(step_eq_fault_iff s .outsideSpace).trans houtside, (step_eq_fault_iff s .misaligned).trans hodd,
    (step_eq_fault_iff s .outsideOut).trans hcell, (step_ne_next_iff s).trans hany⟩

end Sys2Proof.Machine
end

section
/-! PROOFS. Which commands depend on the video mode (R295): a mode put in place of another, and the commands run under
both. -/

namespace Sys2Proof.Machine

/-- `s` with the mode `m` stored. -/
def setMode (m : BitVec 3) (s : State) : State := { s with host := putStore (.regField (.mode m)) s.host }

/-! ### Operations that do not read the mode -/

theorem setMode_guarded (m : BitVec 3) (bits : FaultSet) (i : Instr) (s s' : State) :
    setMode m (guarded bits i s s') = guarded bits i (setMode m s) (setMode m s') :=
  apply_ite (setMode m) ..

theorem setBres_setMode (m : BitVec 3) (v : Option Colour) (s : State) :
    setBres v (setMode m s) = setMode m (setBres v s) := by
  cases v <;> rfl

theorem markDrawn_setMode (m : BitVec 3) (slot : SlotNo) (s : State) :
    markDrawn slot (setMode m s) = setMode m (markDrawn slot s) :=
  Eq.symm (apply_ite (setMode m) ..)

theorem markHidden_setMode (m : BitVec 3) (slot : SlotNo) (s : State) :
    markHidden slot (setMode m s) = setMode m (markHidden slot s) :=
  Eq.symm (apply_ite (setMode m) ..)

theorem qpop_setMode (m : BitVec 3) (s : State) : qpop (setMode m s) = setMode m (qpop s) := by
  have hqset : (setMode m s).qset = s.qset := rfl
  rw [qpop, qpop, hqset]
  cases lowest s.qset <;> rfl

/-! ### `SMP_OBJ` tells a bitmap mode from the rest (R165) -/

section
variable {m : BitVec 3} {s : State} (hm : bitmapMode m = bitmapMode s.host.reg.dispcnt.mode)
include hm

theorem objTexel_setMode (a : ObjAttr) (c : ObjCache) (tx ty : Nat) :
    objTexel (setMode m s).host a c tx ty = objTexel s.host a c tx ty := by
  have hmode : (setMode m s).host.reg.dispcnt.mode = m := rfl
  rw [objTexel, objTexel, hmode, hm]
  rfl

theorem addSlot_setMode (x y : Nat) (r : ORes) (o : SlotNo) : addSlot (setMode m s) x y r o = addSlot s x y r o := by
  have hopaque (a : ObjAttr) (c : ObjCache) : objOpaque (setMode m s).host a c x y = objOpaque s.host a c x y := by
    rw [objOpaque, objOpaque, objIndex, objIndex]
    simp only [objTexel_setMode hm]
    rfl
  rw [addSlot, addSlot, candidate, candidate, hopaque]
  rfl

theorem smpObj_setMode (x y : BitVec 8) : smpObj x y (setMode m s) = setMode m (smpObj x y s) := by
  have hsample : sampleObject (setMode m s) x.toNat y.toNat = sampleObject s x.toNat y.toNat := by
    rw [sampleObject_eq_foldl, sampleObject_eq_foldl]
    exact List.foldl_ext _ _ _ fun r o _ => addSlot_setMode hm ..
  rw [smpObj, hsample]
  rfl

end

/-! ### The commands -/

/-- A command that needs no mode does the same under another mode, `SMP_OBJ` if both are bitmap modes or neither is. -/
theorem execNext_setMode {i : Instr} (hi : ¬NeedsMode i) {m : BitVec 3} {s : State}
    (hm : (∃ x y, i = .smpObj x y) → bitmapMode m = bitmapMode s.host.reg.dispcnt.mode) :
    execNext i (setMode m s) = setMode m (execNext i s) := by
  cases i with
  | markDrawn slot => exact markDrawn_setMode m slot s
  | markHidden slot => exact markHidden_setMode m slot s
  | qpop => exact qpop_setMode m s
  | smpObj x y => exact smpObj_setMode (hm ⟨x, y, rfl⟩) x y
  | smpTile | smpAff | smpBmp3 | smpBmp4 | smpBmp5 => exact setBres_setMode m _ s
  | query | winEval | bldReset | accSeed | accStep => rfl
  | bldObj | bldBg0 | bldBg1 | bldBg2 | bldBg3 | bldBackdrop | bldComposite => exact Eq.symm (setMode_guarded m _ _ s _)
  | renderRow | startFrame | shouldFlush => exact absurd (by simp [NeedsMode]) hi

/-- Settles O23: a reserved mode is a fault condition of the commands that need a mode, and the others commute with
storing another mode. -/
theorem modeReaders : Obligations.ModeReaders := by
  unfold Obligations.ModeReaders
  refine ⟨fun i s hi hmode => ?_, fun i s t m hi hm h => ?_, fun x y s => ⟨smpObj x y s, rfl, rfl, rfl⟩⟩
  · have hreserved : 5 < s.host.reg.dispcnt.mode.toNat := by
      rcases hmode with h | h <;> rw [h] <;> decide
    have happlies : FaultApplies s i 3 := .inr (.inr (.inl ⟨rfl, hi, hreserved⟩))
    have hbit : (faultBits s i).getLsbD 3 = true := (getLsbD_faultBits i s 3).2 happlies
    refine ⟨execNext i s, exec_eq_next i s, ?_⟩
    rw [(FaultStep.execNext i s).raised fun hzero => by simp [hzero] at hbit]
    exact ⟨by rw [raise_fault, BitVec.getLsbD_or, hbit, Bool.or_true], rfl⟩
  · obtain rfl := eq_execNext_of_exec h
    exact (exec_eq_next i (setMode m s)).trans (congrArg _ (execNext_setMode hi hm))

end Sys2Proof.Machine
end
